-- ==== Sys2Proof/Word.lean ====
section
/-!
DEFINITION. The addressable unit and the byte sequence (20_memory.md R26; 00_scope.md R9). Nothing else: every
field assembly, slice and test on bytes is in Machine/Operands.lean.
-/

namespace Sys2Proof

/-- The byte, the addressable unit (20_memory.md R26). -/
abbrev Byte := BitVec 8

/-- A finite byte sequence: a chunk, `BUF`, a frame, a payload (00_scope.md R9). -/
abbrev Bytes := List Byte

end Sys2Proof
end

