-- ==== Sys2Proof/Config.lean ====
section
/-!
DEFINITION. The parameters the spec leaves to the implementation (00_scope.md R8; 92_eei_decisions.md D3, D6, D9,
D10) and the one free value, the samples of `time_in` (42_dispatch.md R92; 93_implementation_defined.md U5).
-/

namespace Sys2Proof

/-- `STATUS_BITS` (00_scope.md R8, 92_eei_decisions.md D9, 93_implementation_defined.md U10): which bit of the
status byte carries which flag, and at which payload offset each trailing byte stands.
DESIGN CHOICE (log 11): the two bits of the GSM level are placed one by one, and the offsets of the trailing
bytes are part of the parameter, as U10's wording asks. Safe: statements hold for more layouts. -/
structure StatusBits where
  oilElectricityCut : Fin 8
  gpsTracking : Fin 8
  charging : Fin 8
  accHigh : Fin 8
  defenceArmed : Fin 8
  lowBattery : Fin 8
  gsmHi : Fin 8
  gsmLo : Fin 8
  voltageAt : Nat
  strengthAt : Nat
  alarmAt : Nat
  languageAt : Nat
  deriving DecidableEq, Repr

/-- The default layout: listed order, least-significant bit first (30_encoding.md R54, D9). -/
def StatusBits.default : StatusBits where
  oilElectricityCut := 0
  gpsTracking := 1
  charging := 2
  accHigh := 3
  defenceArmed := 4
  lowBattery := 5
  gsmHi := 7
  gsmLo := 6
  voltageAt := 1
  strengthAt := 2
  alarmAt := 3
  languageAt := 4

/-- "Without overlap" (92_eei_decisions.md, open parameters): the eight bits are pairwise distinct, and the
trailing bytes stand at four distinct offsets past the status byte. -/
def StatusBits.wf (b : StatusBits) : Bool :=
  decide ([b.oilElectricityCut, b.gpsTracking, b.charging, b.accHigh, b.defenceArmed, b.lowBattery,
    b.gsmHi, b.gsmLo].Nodup)
  && decide ([0, b.voltageAt, b.strengthAt, b.alarmAt, b.languageAt].Nodup)

/-- The parameters of one instance (00_scope.md R8). `none` is the spec's `inf`. That they
stand in State is the model's choice (log 10). -/
structure Config where
  bufCap : Option Nat
  maxChunk : Option Nat
  tsW : Nat
  statusBits : StatusBits
  hemiNegWhenSet : Bool
  deriving DecidableEq, Repr

/-- The defaults of 00_scope.md R8. -/
def Config.default : Config where
  bufCap := none
  maxChunk := none
  tsW := 64
  statusBits := StatusBits.default
  hemiNegWhenSet := true

/-- The constraints of 92_eei_decisions.md, "Open parameters, in one place". -/
def Config.wf (c : Config) : Bool := decide (1 ≤ c.tsW) && c.statusBits.wf

/-- FREE VALUE (log 5): the `k`-th sample of `time_in`, `w` bits wide; `draw(TS_W)` of 00_scope.md R10, "under no
law" (D6). No body: nothing is known of it. -/
opaque Config.timeIn : (w : Nat) → Nat → BitVec w

end Sys2Proof
end

