-- ==== Sys2Proof/Machine/Operands.lean ====
section
/-!
DEFINITION. The operand forms: reading bytes, big-endian fields and slices of a byte sequence (00_scope.md R10;
20_memory.md R27, R29, R30), and the parts of a frame (30_encoding.md R40 to R46).
-/

namespace Sys2Proof.Machine

/-- `s[o]`. Every rule guards its reads so that `o < len(s)` (20_memory.md R27); the zero past the end is reached
by no well-formed instruction (log 15). -/
def byteAt (s : Bytes) (o : Nat) : Byte := s.getD o 0

/-- `s[a..b)`, empty when `b <= a` (00_scope.md R9). -/
def slice (s : Bytes) (a b : Nat) : Bytes := (s.drop a).take (b - a)

/-- `BE16(s, o)` (00_scope.md R10). -/
def be16 (s : Bytes) (o : Nat) : BitVec 16 := byteAt s o ++ byteAt s (o + 1)

/-- `BE24(s, o)` (00_scope.md R10). -/
def be24 (s : Bytes) (o : Nat) : BitVec 24 := byteAt s o ++ byteAt s (o + 1) ++ byteAt s (o + 2)

/-- `BE32(s, o)` (00_scope.md R10). -/
def be32 (s : Bytes) (o : Nat) : BitVec 32 :=
  byteAt s o ++ byteAt s (o + 1) ++ byteAt s (o + 2) ++ byteAt s (o + 3)

/-- `sext_16(v)`: the signed value of a 16-bit pattern (00_scope.md R10). -/
def sext16 (v : BitVec 16) : Int := v.toInt

/-- Bits 7:4 of a byte (20_memory.md R30). -/
def hiNibble (b : Byte) : BitVec 4 := b.extractLsb' 4 4

/-- Bits 3:0 of a byte (20_memory.md R30). -/
def loNibble (b : Byte) : BitVec 4 := b.extractLsb' 0 4

/-- The two bytes of a 16-bit value, most-significant first (20_memory.md R29). -/
def bytesBE16 (v : BitVec 16) : Bytes := [v.extractLsb' 8 8, v.extractLsb' 0 8]

/-- Two adjacent bytes are a start marker: equal, and both `0x78` or both `0x79` (30_encoding.md R41). -/
def isMarker (a b : Byte) : Bool := a == b && (a == 0x78 || a == 0x79)

/-- The sequence begins with a start marker. -/
def markerAtHead : Bytes → Bool
  | a :: b :: _ => isMarker a b
  | _ => false

/-- `total = L + 5`, with `L` the byte at offset 2 (30_encoding.md R42; 41_framer.md R78). -/
def candidateSize (s : Bytes) : Nat := (byteAt s 2).toNat + 5

/-- The last two bytes are the stop marker `0D 0A` (30_encoding.md R46; 41_framer.md R79). -/
def stopOk (f : Bytes) : Bool :=
  byteAt f (f.length - 2) == 0x0D && byteAt f (f.length - 1) == 0x0A

/-- The protocol code, the byte at frame offset 3 (30_encoding.md R43). -/
def protocolOf (f : Bytes) : Byte := byteAt f 3

/-- `payload = frame[4 .. total-6)` (30_encoding.md R44; 42_dispatch.md R87). -/
def payloadOf (f : Bytes) : Bytes := slice f 4 (f.length - 6)

/-- `serial` as read: the byte at `total - 6`, absent when `total = 5` (42_dispatch.md R88). -/
def serialOf (f : Bytes) : Option Byte :=
  if 6 ≤ f.length then some (byteAt f (f.length - 6)) else none

/-- `checksum` as read: the byte at `total - 4` (42_dispatch.md R89). -/
def checksumOf (f : Bytes) : Byte := byteAt f (f.length - 4)

/-- A candidate frame: 5 bytes or more, a start marker, and exactly `L + 5` bytes (41_framer.md R76 to R79). -/
def isCandidate (f : Bytes) : Bool :=
  decide (5 ≤ f.length) && markerAtHead f && f.length == candidateSize f

/-- A frame the dispatcher may be handed: a candidate that ends in the stop marker (42_dispatch.md R85). -/
def isFrame (f : Bytes) : Bool := isCandidate f && stopOk f

/-- The protocol codes that have a row of their own in spec/opcode_table.json. -/
def rowCodes : List Byte := [0x01, 0x12, 0x13, 0x15, 0x16, 0x18, 0x19, 0x1A, 0x21, 0xA0]

end Sys2Proof.Machine
end

