-- ==== Sys2Proof/Machine/Checksum.lean ====
section
/-!
DEFINITION. The CRC-16/X.25 function (40_crc.md R60 to R62, R65, R68) and the acknowledgment frame built with it
(44_ack.md R126, R127; 30_encoding.md R47).
-/

namespace Sys2Proof.Machine

/-- `CRC_POLY_R` (00_scope.md R7). -/
def crcPoly : BitVec 16 := 0x8408

/-- `CRC_INIT` (00_scope.md R7). -/
def crcInit : BitVec 16 := 0xFFFF

/-- One bit step (40_crc.md R60). -/
def crcStep (c : BitVec 16) : BitVec 16 :=
  if c.getLsbD 0 then (c >>> 1) ^^^ crcPoly else c >>> 1

/-- `k` bit steps. -/
def crcSteps : Nat → BitVec 16 → BitVec 16
  | 0, c => c
  | k + 1, c => crcSteps k (crcStep c)

/-- One byte step: the byte is exclusive-ored into the low 8 bits, then eight bit steps (40_crc.md R61). -/
def crcByte (c : BitVec 16) (b : Byte) : BitVec 16 := crcSteps 8 (c ^^^ b.setWidth 16)

/-- The working register after the bytes of a message, from a starting value (40_crc.md R62). -/
def crcRun (c : BitVec 16) (data : Bytes) : BitVec 16 := data.foldl crcByte c

/-- The final complement: the result a working register stands for (40_crc.md R62, R63). -/
def crcResult (c : BitVec 16) : BitVec 16 := ~~~c

/-- `crc16(data)` (40_crc.md R62). -/
def crc16 (data : Bytes) : BitVec 16 := crcResult (crcRun crcInit data)

/-- `T[x]` of the table form (40_crc.md R65). -/
def crcTable (x : Byte) : BitVec 16 := crcByte 0 x

/-- One step of the bit-serial view: data bit `b[j]` enters (40_crc.md R68). -/
def crcSerialStep (b : Byte) (c : BitVec 16) (j : Nat) : BitVec 16 :=
  if (c.getLsbD 0 ^^ b.getLsbD j) then (c >>> 1) ^^^ crcPoly else c >>> 1

/-- The bit-serial view of one byte: `j = 0..7` in that order (40_crc.md R68). -/
def crcSerial (c : BitVec 16) (b : Byte) : BitVec 16 :=
  [0, 1, 2, 3, 4, 5, 6, 7].foldl (crcSerialStep b) c

/-- The four covered bytes of an acknowledgment: length byte `ACK_LEN`, code, serial (44_ack.md R126, R127). -/
def ackBody (serial : BitVec 16) (code : Byte) : Bytes := [0x05, code] ++ bytesBE16 serial

/-- The 10 bytes of an acknowledgment frame (44_ack.md R126). -/
def ackBytes (serial : BitVec 16) (code : Byte) : Bytes :=
  [0x78, 0x78] ++ ackBody serial code ++ bytesBE16 (crc16 (ackBody serial code)) ++ [0x0D, 0x0A]

end Sys2Proof.Machine
end

