-- ==== Sys2Proof/Syntax.lean ====
section
/-!
DEFINITION. The instruction set, one constructor per row of spec/opcode_table.json (00_scope.md R2): the host
commands of 30_encoding.md R48, the two frame envelopes (R40, R41), the frame kinds selected by the protocol code
(R43, R50), and the acknowledgment frame the block emits (R47).
-/

namespace Sys2Proof

/-- The instructions of TPS-FX at both levels of 00_scope.md R2. -/
inductive Instr where
  /-- `RESET`, code 000 (70_reset_and_hazards.md R147). -/
  | reset
  /-- `SUBMIT(chunk)`, code 001 (41_framer.md R70). -/
  | submit (chunk : Bytes)
  /-- `BUILD_ACK(serial, code)`, code 010 (44_ack.md R125). -/
  | buildAck (serial : BitVec 16) (code : Byte)
  /-- `CRC16(data)`, code 011 (40_crc.md R62). -/
  | crc16 (data : Bytes)
  /-- `CRC_FIRST(b)`, code 100 (40_crc.md R63). -/
  | crcFirst (b : Byte)
  /-- `CRC_NEXT(b)`, code 101 (40_crc.md R63). -/
  | crcNext (b : Byte)
  /-- Reserved code 110, any arguments (30_encoding.md R49; 10_state.md R22). -/
  | reserved110 (operands : Bytes)
  /-- Reserved code 111, any arguments (30_encoding.md R49; 10_state.md R22). -/
  | reserved111 (operands : Bytes)
  /-- A candidate frame that begins `78 78` (30_encoding.md R40; 41_framer.md R79). -/
  | frameStd (frame : Bytes)
  /-- A candidate frame that begins `79 79` (30_encoding.md R41; 41_framer.md R79). -/
  | frameExt (frame : Bytes)
  /-- Frame kind `0x01` (43_payload_decoders.md R98). -/
  | login (frame : Bytes)
  /-- Frame kind `0x12` (43_payload_decoders.md R112). -/
  | gpsLbsStatus (frame : Bytes)
  /-- Frame kind `0x13` (43_payload_decoders.md R99). -/
  | statusInfo (frame : Bytes)
  /-- Frame kind `0x15` (42_dispatch.md R94). -/
  | stringInfo (frame : Bytes)
  /-- Frame kind `0x16` (43_payload_decoders.md R100). -/
  | alarmData (frame : Bytes)
  /-- Frame kind `0x1A` (43_payload_decoders.md R112). -/
  | gpsLbsData (frame : Bytes)
  /-- Frame kind `0xA0` (43_payload_decoders.md R121). -/
  | gpsLbsStatusA0 (frame : Bytes)
  /-- Frame kind `0x18`, acknowledged, without a name (42_dispatch.md R94). -/
  | unknownAck18 (frame : Bytes)
  /-- Frame kind `0x19`, acknowledged, without a name (42_dispatch.md R94). -/
  | unknownAck19 (frame : Bytes)
  /-- Frame kind `0x21`, acknowledged, without a name (42_dispatch.md R94). -/
  | unknownAck21 (frame : Bytes)
  /-- The default arm: each of the 246 other protocol codes (30_encoding.md R50; 42_dispatch.md R94). -/
  | unknown (frame : Bytes)
  /-- The acknowledgment frame, the output of `BUILD_ACK` (30_encoding.md R47; 44_ack.md R126). -/
  | ackFrame (serial : BitVec 16) (code : Byte)
  deriving DecidableEq, Repr

end Sys2Proof
end

