-- ==== Sys2Proof/WellFormed.lean ====
section
/-!
DEFINITION. Which instructions are well formed: a candidate is `L + 5` bytes behind its own start marker
(41_framer.md R76 to R79), and the frame of a kind meets DECODE's preconditions (42_dispatch.md R85) and carries
that kind's protocol code (30_encoding.md R50). A command has no ill-formed operand: every byte sequence is one.
-/

namespace Sys2Proof

/-- The frame meets DECODE's preconditions and carries the code. -/
def frameOfKind (code : Byte) (f : Bytes) : Bool :=
  Machine.isFrame f && Machine.protocolOf f == code

/-- Well-formedness of an instruction. -/
def Instr.wellFormed : Instr → Bool
  | .reset | .submit _ | .buildAck _ _ | .crc16 _ | .crcFirst _ | .crcNext _ => true
  | .reserved110 _ | .reserved111 _ | .ackFrame _ _ => true
  | .frameStd f => Machine.isCandidate f && Machine.byteAt f 0 == 0x78
  | .frameExt f => Machine.isCandidate f && Machine.byteAt f 0 == 0x79
  | .login f => frameOfKind 0x01 f
  | .gpsLbsStatus f => frameOfKind 0x12 f
  | .statusInfo f => frameOfKind 0x13 f
  | .stringInfo f => frameOfKind 0x15 f
  | .alarmData f => frameOfKind 0x16 f
  | .gpsLbsData f => frameOfKind 0x1A f
  | .gpsLbsStatusA0 f => frameOfKind 0xA0 f
  | .unknownAck18 f => frameOfKind 0x18 f
  | .unknownAck19 f => frameOfKind 0x19 f
  | .unknownAck21 f => frameOfKind 0x21 f
  | .unknown f => Machine.isFrame f && !Machine.rowCodes.contains (Machine.protocolOf f)

/-- Well-formedness as a proposition. -/
abbrev Instr.WellFormed (i : Instr) : Prop := i.wellFormed = true

end Sys2Proof
end

