-- ==== Sys2Proof/Decode.lean ====
section
/-!
DEFINITION. The decoder, total on any bytes, and the encoder (30_encoding.md R40 to R50; opcode_table.json). An
encoded operation is its bits and the place they are presented at: the command port (R48), the head of `BUF`
(41_framer.md R76), the dispatcher (42_dispatch.md R85) or the acknowledgment output (R47).
-/

namespace Sys2Proof

/-- The bits of an operation, at the place where the block meets them. The form of the command operands and the
separate places are the model's: DESIGN CHOICE, log 2 and log 3; safe. -/
inductive Code where
  /-- The command port: `cmd[2:0]` and the operand bytes (30_encoding.md R48). -/
  | command (cmd : BitVec 3) (operands : Bytes)
  /-- The bytes at the head of `BUF`: a candidate and whatever follows it (41_framer.md R76 to R79). -/
  | candidate (bytes : Bytes)
  /-- One frame handed to the dispatcher (42_dispatch.md R85). -/
  | dispatch (frame : Bytes)
  /-- Bytes at the acknowledgment output (30_encoding.md R47). -/
  | ackOut (bytes : Bytes)
  deriving DecidableEq, Repr

/-- Why bits are no instruction. -/
inductive Reject where
  /-- A command with the wrong number of operand bytes. Safe: 10_state.md R22 gives each command its arguments. -/
  | operandCount
  /-- A candidate is asked for where no start marker stands (30_encoding.md R41). Safe. -/
  | noStartMarker
  /-- Fewer than 5 bytes behind the start marker (41_framer.md R77). Safe: the framer waits. -/
  | headerIncomplete
  /-- Fewer than `L + 5` bytes (41_framer.md R78). Safe: the framer waits. -/
  | frameIncomplete
  /-- Bytes that do not meet DECODE's preconditions (42_dispatch.md R85). Safe. -/
  | notAFrame
  /-- Bytes that are no acknowledgment frame (30_encoding.md R47). Safe. -/
  | notAnAck
  deriving DecidableEq, Repr

/-- The framer keeps the bytes and waits for more: not an error (60_exceptions.md R134). -/
def Reject.waits : Reject → Bool
  | .headerIncomplete | .frameIncomplete => true
  | _ => false

/-- A command from the command port (30_encoding.md R48, R49). -/
def decodeCommand (cmd : BitVec 3) (operands : Bytes) : Except Reject Instr :=
  match cmd.toNat, operands with
  | 0, [] => .ok .reset
  | 0, _ => .error .operandCount
  | 1, chunk => .ok (.submit chunk)
  | 2, [h, l, code] => .ok (.buildAck (h ++ l) code)
  | 2, _ => .error .operandCount
  | 3, data => .ok (.crc16 data)
  | 4, [b] => .ok (.crcFirst b)
  | 4, _ => .error .operandCount
  | 5, [b] => .ok (.crcNext b)
  | 5, _ => .error .operandCount
  | 6, ops => .ok (.reserved110 ops)
  | _, ops => .ok (.reserved111 ops)

/-- The candidate frame at the head of the bytes (41_framer.md R76 to R79; 30_encoding.md R40 to R42). -/
def decodeCandidate (b : Bytes) : Except Reject Instr :=
  if Machine.markerAtHead b then
    if b.length < 5 then .error .headerIncomplete
    else if b.length < Machine.candidateSize b then .error .frameIncomplete
    else if Machine.byteAt b 0 = 0x78 then .ok (.frameStd (b.take (Machine.candidateSize b)))
    else .ok (.frameExt (b.take (Machine.candidateSize b)))
  else .error .noStartMarker

/-- The frame kind a protocol code selects (30_encoding.md R50, R51: there is no illegal code). -/
def kindOf (code : Byte) (f : Bytes) : Instr :=
  if code = 0x01 then .login f
  else if code = 0x12 then .gpsLbsStatus f
  else if code = 0x13 then .statusInfo f
  else if code = 0x15 then .stringInfo f
  else if code = 0x16 then .alarmData f
  else if code = 0x18 then .unknownAck18 f
  else if code = 0x19 then .unknownAck19 f
  else if code = 0x1A then .gpsLbsData f
  else if code = 0x21 then .unknownAck21 f
  else if code = 0xA0 then .gpsLbsStatusA0 f
  else .unknown f

/-- One frame handed to the dispatcher (42_dispatch.md R85, R93). -/
def decodeKind (f : Bytes) : Except Reject Instr :=
  if Machine.isFrame f then .ok (kindOf (Machine.protocolOf f) f) else .error .notAFrame

/-- The acknowledgment pattern of 30_encoding.md R47, with its CRC field checked against R126. -/
def decodeAck (b : Bytes) : Except Reject Instr :=
  if b = Machine.ackBytes (Machine.be16 b 4) (Machine.byteAt b 3)
  then .ok (.ackFrame (Machine.be16 b 4) (Machine.byteAt b 3))
  else .error .notAnAck

/-- The decoder. -/
def decode : Code → Except Reject Instr
  | .command cmd ops => decodeCommand cmd ops
  | .candidate b => decodeCandidate b
  | .dispatch f => decodeKind f
  | .ackOut b => decodeAck b

/-- The encoder, from the same tables (30_encoding.md R40, R47, R48). -/
def encode : Instr → Code
  | .reset => .command 0 []
  | .submit chunk => .command 1 chunk
  | .buildAck serial code => .command 2 (Machine.bytesBE16 serial ++ [code])
  | .crc16 data => .command 3 data
  | .crcFirst b => .command 4 [b]
  | .crcNext b => .command 5 [b]
  | .reserved110 ops => .command 6 ops
  | .reserved111 ops => .command 7 ops
  | .frameStd f | .frameExt f => .candidate f
  | .login f | .gpsLbsStatus f | .statusInfo f | .stringInfo f | .alarmData f | .gpsLbsData f => .dispatch f
  | .gpsLbsStatusA0 f | .unknownAck18 f | .unknownAck19 f | .unknownAck21 f | .unknown f => .dispatch f
  | .ackFrame serial code => .ackOut (Machine.ackBytes serial code)

/-- The bytes of an encoded operation, less the command code. -/
def Code.bytes : Code → Bytes
  | .command _ ops => ops
  | .candidate b | .dispatch b | .ackOut b => b

/-- Zero operand bytes, as many as the command has fixed operands. -/
def zeroOperands (cmd : BitVec 3) : Bytes :=
  if cmd = 2 then [0, 0, 0] else if cmd = 4 ∨ cmd = 5 then [0] else []

/-- The smallest frame in which serial and checksum stand apart from the header (`L = 5`), with a given protocol
code and every free bit zero (30_encoding.md R40): what a FRAME kind row's one byte stands in. -/
def zeroFrame (code : Byte) : Bytes := [0x78, 0x78, 0x05, code, 0, 0, 0, 0, 0x0D, 0x0A]

/-- The first `k` bytes of a table word, first byte in bits 7..0, each later byte above it. DESIGN CHOICE (log 25):
30_encoding.md R47 gives the acknowledgment's 80-bit pattern byte 0 first and does not number it; safe. -/
def tableBytes : Nat → Nat → Bytes
  | 0, _ => []
  | k + 1, w => BitVec.ofNat 8 w :: tableBytes k (w / 256)

/-- How the words of spec/opcode_table.json are laid out (log 4). The table numbers three encoding spaces that
overlap; the row's width tells them apart: the 3-bit command codes (fewer than 8 bits), the protocol-code byte of
the FRAME kind rows (8 bits), the start marker of the FRAME envelope rows (16 bits, the rest zero: a candidate of
`L = 0`), the acknowledgment frame (80 bits; its byte order: log 25). -/
def tableCode (nbits w : Nat) : Option Code :=
  if 0 < nbits ∧ nbits < 8 then some (.command (BitVec.ofNat 3 w) (zeroOperands (BitVec.ofNat 3 w)))
  else if nbits = 8 then some (.dispatch (zeroFrame (BitVec.ofNat 8 w)))
  else if nbits = 16 then some (.candidate (tableBytes 5 (w % 65536)))
  else if nbits = 80 then some (.ackOut (tableBytes 10 w))
  else none

/-- The instruction the decoder reads from a word of spec/opcode_table.json. -/
def decodeTableWord (nbits w : Nat) : Option Instr :=
  match tableCode nbits w with
  | some c => (decode c).toOption
  | none => none

end Sys2Proof
end

