-- ==== Sys2Proof/Machine/Record.lean ====
section
/-!
DEFINITION. The decoded record (30_encoding.md R52) and its parts. Fields that are present together or not at all
(43_payload_decoders.md R123) stand in one optional group (log 24): DEDUCED, safe.
-/

namespace Sys2Proof.Machine

/-- The protocol-name enumeration (30_encoding.md R50). -/
inductive ProtocolName where
  | unknown
  | login
  | gpsLbsStatus
  | statusInfo
  | stringInfo
  | alarmData
  | gpsLbsData
  | gpsLbsStatusA0
  deriving DecidableEq, Repr

/-- The seven `status.*` fields (30_encoding.md R52, R54). -/
structure StatusFlags where
  oilElectricityCut : Bool
  gpsTracking : Bool
  charging : Bool
  accHigh : Bool
  defenceArmed : Bool
  lowBattery : Bool
  gsmSignalLevel : BitVec 2
  deriving DecidableEq, Repr

/-- The eight `alarmType.*` fields (30_encoding.md R52, R55). -/
structure AlarmFlags where
  emergency : Bool
  overspeed : Bool
  lowPower : Bool
  shock : Bool
  intoArea : Bool
  outArea : Bool
  longNoOperation : Bool
  distance : Bool
  deriving DecidableEq, Repr

/-- `gpsTime` (30_encoding.md R52; 43_payload_decoders.md R102). -/
structure GpsTime where
  year : Nat
  month : Nat
  day : Nat
  hour : Nat
  minute : Nat
  second : Nat
  deriving DecidableEq, Repr

/-- What the status word gives: `course` and the four fix flags (43_payload_decoders.md R108, R109). -/
structure FixFlags where
  course : BitVec 10
  realTime : Bool
  positioned : Bool
  east : Bool
  north : Bool
  deriving DecidableEq, Repr

/-- The cell block (30_encoding.md R58). -/
structure CellBlock where
  mcc : BitVec 16
  mnc : Byte
  lac : BitVec 16
  cellId : BitVec 24
  deriving DecidableEq, Repr

/-- The decoded record (30_encoding.md R52). `none` is an absent field. -/
structure Record where
  raw : Bytes
  captureTime : Nat
  length : Byte
  protocol : Byte
  protocolName : ProtocolName
  serial : Option Byte
  checksum : Byte
  needsResponse : Bool
  data : Option Bytes := none
  terminalId : Option Bytes := none
  deviceType : Option (BitVec 16) := none
  timezone : Option Int := none
  status : Option StatusFlags := none
  voltageLevel : Option Byte := none
  gsmSignalStrength : Option Byte := none
  alarmCode : Option Byte := none
  languageCode : Option Byte := none
  alarmType : Option AlarmFlags := none
  gpsTime : Option GpsTime := none
  satellites : Option (BitVec 4) := none
  latRaw : Option (BitVec 32) := none
  lonRaw : Option (BitVec 32) := none
  speed : Option Byte := none
  fix : Option FixFlags := none
  latitude : Option Int := none
  longitude : Option Int := none
  cell : Option CellBlock := none
  additionalData : Option Bytes := none
  deriving DecidableEq, Repr

end Sys2Proof.Machine
end

