-- ==== Sys2Proof/Machine/State.lean ====
section
/-!
DEFINITION. The state of one instance (10_state.md R13, R14, R19, R22, R23), its results, and the state after
reset (70_reset_and_hazards.md R148).
-/

namespace Sys2Proof.Machine

/-- A diagnostic event of `SUBMIT` (60_exceptions.md R131, R141). -/
inductive Diag where
  /-- E1: that many bytes before the start marker dropped (R132). -/
  | garbageSkipped (i : Nat)
  /-- E2: the whole buffer, that many bytes, dropped (R136). -/
  | noMarkerFlush (n : Nat)
  /-- E3: a candidate of that many bytes dropped (R133). -/
  | badStopDrop (total : Nat)
  /-- E5: a decode failed (R135); no decoder of the spec causes it. -/
  | decodeFail
  deriving DecidableEq, Repr

/-- Why a command is refused: it completes, with no state change and this result (00_scope.md R10). -/
inductive RefuseReason where
  /-- E6, `SUBMIT` beyond `BUF_CAP` or `MAX_CHUNK` (60_exceptions.md R137; 41_framer.md R71). -/
  | overflow
  /-- E7, command codes 110 and 111 (60_exceptions.md R138). -/
  | reservedCommand
  /-- `CRC_NEXT` with no `CRC_FIRST` since reset (93_implementation_defined.md U7). The name is the model's
  (log 9). -/
  | noCrcMessage
  deriving DecidableEq, Repr

/-- The result of a command (10_state.md R22) or of an internal operation. -/
inductive Result where
  /-- `RESET` has none; nor has an instance that has executed nothing. -/
  | noResult
  /-- `Ok(records, diag)` of `SUBMIT` (41_framer.md R81). -/
  | ok (records : List Record) (diag : List Diag)
  /-- `Refused(reason)` (60_exceptions.md R137, R138). -/
  | refused (reason : RefuseReason)
  /-- The bytes of an acknowledgment frame (44_ack.md R125). -/
  | frame (bytes : Bytes)
  /-- A 16-bit CRC (40_crc.md R62, R63). -/
  | crc (value : BitVec 16)
  /-- What DECODE returns: a record, or `none` for `Fail` (42_dispatch.md R85). -/
  | decoded (record : Option Record)
  deriving DecidableEq, Repr

/-- What has been presented to the block and not executed yet. A candidate is not carried along: it is the bytes
at the head of `BUF` (20_memory.md R25 b). Only `command` is the host's (log 1); the other three are the internal
operations of `SUBMIT` and `BUILD_ACK`, which the model can also run one at a time (log 3). -/
inductive Request where
  | command (cmd : BitVec 3) (operands : Bytes)
  | candidate
  | dispatch (frame : Bytes)
  | ackOut (bytes : Bytes)
  deriving DecidableEq, Repr

/-- The state of one instance. -/
structure State where
  /-- The parameters, fixed before reset (10_state.md R18). -/
  cfg : Config
  /-- `BUF`, the accumulation buffer (10_state.md R14). -/
  buf : Bytes
  /-- The streaming working register `CRCR` (10_state.md R19; 40_crc.md R63). -/
  crcr : BitVec 16
  /-- A `CRC_FIRST` has been issued since reset (93_implementation_defined.md U7). -/
  crcOpen : Bool
  /-- The model's own: samples of `time_in` taken so far (42_dispatch.md R92; log 6). -/
  draws : Nat
  /-- The model's own: the result of the last command (10_state.md R22; log 7). -/
  result : Result
  /-- The model's own: what stands on the ports, oldest first (20_memory.md R37; log 1). -/
  port : List Request
  deriving DecidableEq, Repr

/-- Reasons a step stops with a fault: none. "Nothing in this block is treated as stuck or fault"
(93_implementation_defined.md; 60_exceptions.md R131). -/
inductive Fault where
  deriving DecidableEq, Repr

/-- Reasons a step refuses. -/
inductive Refusal where
  /-- An instruction without a meaning, raised by `exec` alone. Safe: nothing is claimed of it. -/
  | notModelled (mnemonic : String)
  /-- What stands on a port is no instruction of the spec, raised by `step` alone. Safe: 10_state.md R22 gives it
  no meaning. -/
  | rejected (why : Reject)
  deriving DecidableEq, Repr

/-- The state after reset and after power-on (10_state.md R23; 70_reset_and_hazards.md R148): `BUF = []`, the
default parameters of 00_scope.md R8. The other four values are the model's: `crcr` DESIGN CHOICE (log 8, unsafe),
`draws` (log 6), `result` (log 7), `port` (log 1); `crcOpen` is false since no `CRC_FIRST` has been issued. -/
def State.reset : State where
  cfg := Config.default
  buf := []
  crcr := 0
  crcOpen := false
  draws := 0
  result := .noResult
  port := []

end Sys2Proof.Machine
end

