-- ==== Sys2Proof/Machine/Ops.lean ====
section
/-!
DEFINITION. The named operations over the state: the buffer's reads and writes (20_memory.md R25 to R28), the one
draw of a time sample (42_dispatch.md R92), and the two ways a command ends: with a result, or refused with no
state change (00_scope.md R10). The block takes no exception and returns from none (60_exceptions.md R131): a
refusal is all there is of that kind.
-/

namespace Sys2Proof.Machine

/-- What a step answers. -/
abbrev StepOutcome := Host.Outcome State Fault Refusal

def State.withBuf (s : State) (b : Bytes) : State := { s with buf := b }
def State.withCrcr (s : State) (c : BitVec 16) : State := { s with crcr := c }
def State.withCrcOpen (s : State) (o : Bool) : State := { s with crcOpen := o }
def State.withDraws (s : State) (n : Nat) : State := { s with draws := n }
def State.withResult (s : State) (r : Result) : State := { s with result := r }
def State.withPort (s : State) (p : List Request) : State := { s with port := p }

/-- `MemRead(addr, n)`: defined only when `addr + n <= len(BUF)` (20_memory.md R27). -/
def Memory.read (b : Bytes) (addr n : Nat) : Option Bytes :=
  if addr + n ≤ b.length then some (slice b addr (addr + n)) else none

/-- One byte of `BUF`. An offset at or past `len(BUF)` holds no value (20_memory.md R25). -/
def Memory.byte (b : Bytes) (addr : Nat) : Option Byte := b[addr]?

/-- `append(BUF, s)` (20_memory.md R28). -/
def Memory.append (b s : Bytes) : Bytes := b ++ s

/-- `drop_prefix(BUF, k)` (20_memory.md R28). -/
def Memory.dropPrefix (b : Bytes) (k : Nat) : Bytes := b.drop k

/-- `BUF` as (address, byte) pairs, the addresses being the offsets from the head (20_memory.md R25 a;
log 13). -/
def Memory.cells (b : Bytes) : List Host.Cell := b.zipIdx.map fun p => (p.2, p.1)

/-- A length within an optional bound (`none` is `inf`). -/
def within (bound : Option Nat) (n : Nat) : Bool :=
  match bound with
  | none => true
  | some m => decide (n ≤ m)

/-- The buffer's form: `0 <= len(BUF) <= BUF_CAP` (10_state.md R14). -/
def Memory.wf (c : Config) (b : Bytes) : Bool := within c.bufCap b.length

/-- `draw(TS_W)`: the next sample of `time_in`, any value (00_scope.md R8; 42_dispatch.md R92). -/
def timeSample (c : Config) (k : Nat) : Nat := (Config.timeIn c.tsW k).toNat

/-- A command ends with a result. -/
def complete (s : State) (r : Result) : StepOutcome := .next (s.withResult r)

/-- `refuse <Reason>`: a command ends with no state change and the named refusal as its result (00_scope.md R10;
log 19). -/
def refuse (s : State) (why : RefuseReason) : StepOutcome := complete s (.refused why)

end Sys2Proof.Machine
end

