-- ==== Sys2Proof/Machine/Control.lean ====
section
/-!
DEFINITION. `RESET` (70_reset_and_hazards.md R147) and the reserved command codes (30_encoding.md R49).
-/

namespace Sys2Proof.Machine

/-- `RESET`: `BUF <- []`; `CRCR` is not touched, its message is no longer open (70_reset_and_hazards.md R147,
R148; 93_implementation_defined.md U7, U8; log 9). -/
def execReset (s : State) : StepOutcome := complete ((s.withBuf []).withCrcOpen false) .noResult

/-- Reserved code `110` (30_encoding.md R49; 60_exceptions.md R138). -/
def execReserved110 (_operands : Bytes) (s : State) : StepOutcome := refuse s .reservedCommand

/-- Reserved code `111` (30_encoding.md R49; 60_exceptions.md R138). -/
def execReserved111 (_operands : Bytes) (s : State) : StepOutcome := refuse s .reservedCommand

end Sys2Proof.Machine
end

