-- ==== Sys2Proof/Machine/Crc.lean ====
section
/-!
DEFINITION. The CRC commands (40_crc.md R62, R63) and the acknowledgment builder (44_ack.md R125, R126).
-/

namespace Sys2Proof.Machine

/-- `CRC16(data)`: a pure function of the data; the streaming `CRCR` is not touched (40_crc.md R62, R63). -/
def execCrc16 (data : Bytes) (s : State) : StepOutcome := complete s (.crc (crc16 data))

/-- One streaming beat: the register after the byte, and the result it stands for (40_crc.md R63). -/
def crcBeat (c : BitVec 16) (b : Byte) (s : State) : StepOutcome :=
  complete ((s.withCrcr (crcByte c b)).withCrcOpen true) (.crc (crcResult (crcByte c b)))

/-- `CRC_FIRST(b)` (40_crc.md R63). -/
def execCrcFirst (b : Byte) (s : State) : StepOutcome := crcBeat crcInit b s

/-- `CRC_NEXT(b)` (40_crc.md R63); refused with no `CRC_FIRST` since reset (93_implementation_defined.md U7). -/
def execCrcNext (b : Byte) (s : State) : StepOutcome :=
  if s.crcOpen then crcBeat s.crcr b s else refuse s .noCrcMessage

/-- `BUILD_ACK(serial, code)`: every serial and every code is accepted (44_ack.md R126, R129). -/
def execBuildAck (serial : BitVec 16) (code : Byte) (s : State) : StepOutcome :=
  complete s (.frame (ackBytes serial code))

/-- The acknowledgment frame put out by itself (30_encoding.md R47; 44_ack.md R126; log 3). -/
def execAckFrame (serial : BitVec 16) (code : Byte) (s : State) : StepOutcome :=
  complete s (.frame (ackBytes serial code))

end Sys2Proof.Machine
end

