-- ==== Sys2Proof/Machine/Flags.lean ====
section
/-!
DEFINITION. The flag computations. No flag of this block is state (10_state.md R17); these are the Boolean fields
of a record: the registry's two lookups (30_encoding.md R50; 42_dispatch.md R90, R91), the status byte
(43_payload_decoders.md R99), the alarm byte (R100), the status word (R108, R109) and the sign rules (R113, R114).
-/

namespace Sys2Proof.Machine

/-- The protocol registry's name column (30_encoding.md R50; 42_dispatch.md R90). -/
def registryName (code : Byte) : ProtocolName :=
  if code = 0x01 then .login
  else if code = 0x12 then .gpsLbsStatus
  else if code = 0x13 then .statusInfo
  else if code = 0x15 then .stringInfo
  else if code = 0x16 then .alarmData
  else if code = 0x1A then .gpsLbsData
  else if code = 0xA0 then .gpsLbsStatusA0
  else .unknown

/-- The `name id` column (30_encoding.md R50). -/
def nameId : ProtocolName → BitVec 3
  | .unknown => 0
  | .login => 1
  | .gpsLbsStatus => 2
  | .statusInfo => 3
  | .stringInfo => 4
  | .alarmData => 5
  | .gpsLbsData => 6
  | .gpsLbsStatusA0 => 7

/-- `ACK_SET` (00_scope.md R7). -/
def ackSet : List Byte := [0x01, 0x21, 0x15, 0x16, 0x18, 0x19]

/-- `needsResponse`: membership of the protocol code in `ACK_SET` (42_dispatch.md R91). -/
def needsAck (code : Byte) : Bool := ackSet.contains code

/-- The status byte under `STATUS_BITS`; a set bit is true (43_payload_decoders.md R99). -/
def statusFlags (l : StatusBits) (s : Byte) : StatusFlags where
  oilElectricityCut := s.getLsbD l.oilElectricityCut
  gpsTracking := s.getLsbD l.gpsTracking
  charging := s.getLsbD l.charging
  accHigh := s.getLsbD l.accHigh
  defenceArmed := s.getLsbD l.defenceArmed
  lowBattery := s.getLsbD l.lowBattery
  gsmSignalLevel := BitVec.ofBool (s.getLsbD l.gsmHi) ++ BitVec.ofBool (s.getLsbD l.gsmLo)

/-- The alarm byte, bits 0 to 7 in listed order (43_payload_decoders.md R100). -/
def alarmFlags (a : Byte) : AlarmFlags where
  emergency := a.getLsbD 0
  overspeed := a.getLsbD 1
  lowPower := a.getLsbD 2
  shock := a.getLsbD 3
  intoArea := a.getLsbD 4
  outArea := a.getLsbD 5
  longNoOperation := a.getLsbD 6
  distance := a.getLsbD 7

/-- Course and fix flags of a status word; each flag is true when its bit is clear (43_payload_decoders.md R108,
R109; 90_conflicts.md C2). -/
def fixFlags (w : BitVec 16) : FixFlags where
  course := w.extractLsb' 0 10
  realTime := w &&& 0x2000 == 0
  positioned := w &&& 0x1000 == 0
  east := w &&& 0x0800 == 0
  north := w &&& 0x0400 == 0

/-- The signed coordinate: negated when its hemisphere flag is false (43_payload_decoders.md R113, R114); with
`HEMI_NEG_WHEN_SET = false`, when the flag is true (92_eei_decisions.md D10). -/
def signedCoord (c : Config) (flag : Bool) (raw : BitVec 32) : Int :=
  if flag == c.hemiNegWhenSet then (raw.toNat : Int) else -(raw.toNat : Int)

end Sys2Proof.Machine
end

