-- ==== Sys2Proof/Machine/Payload.lean ====
section
/-!
DEFINITION. The payload decoders (43_payload_decoders.md): pure functions of the payload that add fields to a
record (R97). A gate that is not met leaves the fields behind it as they were.
-/

namespace Sys2Proof.Machine

/-- `PD_LOGIN` (43_payload_decoders.md R98). -/
def pdLogin (p : Bytes) (r : Record) : Record :=
  if p.length < 8 then r
  else { r with
    terminalId := some (p.take 8)
    deviceType := if 10 ≤ p.length then some (be16 p 8) else r.deviceType
    timezone := if 12 ≤ p.length then some (sext16 (be16 p 10)) else r.timezone }

/-- One trailing byte of a status payload: read iff it is there (43_payload_decoders.md R99). -/
def trailing (p : Bytes) (o : Nat) (old : Option Byte) : Option Byte :=
  if o < p.length then some (byteAt p o) else old

/-- `PD_STATUS` under `STATUS_BITS` (43_payload_decoders.md R99). -/
def pdStatus (l : StatusBits) (p : Bytes) (r : Record) : Record :=
  if p.length < 1 then r
  else { r with
    status := some (statusFlags l (byteAt p 0))
    voltageLevel := trailing p l.voltageAt r.voltageLevel
    gsmSignalStrength := trailing p l.strengthAt r.gsmSignalStrength
    alarmCode := trailing p l.alarmAt r.alarmCode
    languageCode := trailing p l.languageAt r.languageCode }

/-- `dt_ok`: the six range tests of the fix time (43_payload_decoders.md R102). -/
def dtOk (g : Bytes) : Bool :=
  decide ((byteAt g 0).toNat ≤ 50)
  && decide (1 ≤ (byteAt g 1).toNat) && decide ((byteAt g 1).toNat ≤ 12)
  && decide (1 ≤ (byteAt g 2).toNat) && decide ((byteAt g 2).toNat ≤ 31)
  && decide ((byteAt g 3).toNat ≤ 23) && decide ((byteAt g 4).toNat ≤ 59) && decide ((byteAt g 5).toNat ≤ 59)

/-- The fix time of six bytes, when plausible (43_payload_decoders.md R102). -/
def gpsTimeOf (g : Bytes) : Option GpsTime :=
  if dtOk g then some {
    year := 2000 + (byteAt g 0).toNat
    month := (byteAt g 1).toNat
    day := (byteAt g 2).toNat
    hour := (byteAt g 3).toNat
    minute := (byteAt g 4).toNat
    second := (byteAt g 5).toNat }
  else none

/-- The date/time field (43_payload_decoders.md R102): assigned only when plausible. -/
def addGpsTime (g : Bytes) (r : Record) : Record :=
  { r with gpsTime := (gpsTimeOf g).or r.gpsTime }

/-- The 28-bit latitude of the standard block, zero-extended (43_payload_decoders.md R104). -/
def stdLatitude (g : Bytes) : BitVec 32 :=
  0#4 ++ loNibble (byteAt g 6) ++ byteAt g 7 ++ byteAt g 8 ++ byteAt g 9

/-- The fields of a status word, and the signed coordinates whose raw value is present (43_payload_decoders.md
R107 to R109, R113, R114, R119). -/
def addStatusWord (c : Config) (w : BitVec 16) (r : Record) : Record :=
  { r with
    fix := some (fixFlags w)
    latitude := (r.latRaw.map (signedCoord c (fixFlags w).north)).or r.latitude
    longitude := (r.lonRaw.map (signedCoord c (fixFlags w).east)).or r.longitude }

/-- The 8-byte cell block at an offset (30_encoding.md R58). -/
def cellAt (p : Bytes) (o : Nat) : CellBlock where
  mcc := be16 p o
  mnc := byteAt p (o + 2)
  lac := be16 p (o + 3)
  cellId := be24 p (o + 5)

/-- The left-over bytes from an offset on (43_payload_decoders.md R111). -/
def leftOver (g : Bytes) (off : Nat) (r : Record) : Record :=
  if off < g.length then { r with additionalData := some (g.drop off) } else r

/-- The standard block's cell block, read iff 9 bytes or more remain at offset 17, then the left-over bytes
(43_payload_decoders.md R110, R111). -/
def gpsCell (g : Bytes) (r : Record) : Record :=
  if 9 ≤ g.length - 17 then leftOver g 25 { r with cell := some (cellAt g 17) } else leftOver g 17 r

/-- The standard block from the status word on (43_payload_decoders.md R107). -/
def gpsStatusWord (c : Config) (g : Bytes) (r : Record) : Record :=
  if 17 ≤ g.length then gpsCell g (addStatusWord c (be16 g 15) r) else leftOver g 15 r

/-- The standard block from the speed on (43_payload_decoders.md R106). -/
def gpsSpeed (c : Config) (g : Bytes) (r : Record) : Record :=
  if 15 ≤ g.length then gpsStatusWord c g { r with speed := some (byteAt g 14) } else leftOver g 14 r

/-- The standard block from the longitude on (43_payload_decoders.md R105). -/
def gpsLongitude (c : Config) (g : Bytes) (r : Record) : Record :=
  if 14 ≤ g.length then gpsSpeed c g { r with lonRaw := some (be32 g 10) } else leftOver g 10 r

/-- `PD_GPSLBS`, the standard block (43_payload_decoders.md R101 to R104, R112). -/
def pdGpsLbs (c : Config) (g : Bytes) (r : Record) : Record :=
  if g.length < 12 then r
  else gpsLongitude c g { addGpsTime g r with
    satellites := some (hiNibble (byteAt g 6))
    latRaw := some (stdLatitude g) }

/-- `PD_ALARM`: the eight flags, then the standard block on the remaining bytes (43_payload_decoders.md R100). -/
def pdAlarm (c : Config) (p : Bytes) (r : Record) : Record :=
  if p.length < 1 then r
  else pdGpsLbs c (p.drop 1) { r with alarmType := some (alarmFlags (byteAt p 0)) }

/-- A coordinate of the extended variant is accepted iff `0 < v < 0xFFFFFFFF` (43_payload_decoders.md R117,
R118). -/
def acceptRaw (v : BitVec 32) (old : Option (BitVec 32)) : Option (BitVec 32) :=
  if 0 < v.toNat ∧ v.toNat < 0xFFFFFFFF then some v else old

/-- A plausible MCC, `100..999` (43_payload_decoders.md R120). -/
def plausibleMcc (m : BitVec 16) : Bool := decide (100 ≤ m.toNat) && decide (m.toNat ≤ 999)

/-- The scan for the cell block from an offset on: the first plausible MCC behind which the whole block fits
(43_payload_decoders.md R120). The first argument bounds the number of offsets tried; `len(p)` always suffices
(log 14). -/
def scanCell (p : Bytes) : Nat → Nat → Option CellBlock
  | 0, _ => none
  | k + 1, i =>
    if i + 8 ≤ p.length then
      if plausibleMcc (be16 p i) then some (cellAt p i) else scanCell p k (i + 1)
    else none

/-- The extended payload from the status word on (43_payload_decoders.md R119, R120). -/
def a0StatusWord (c : Config) (p : Bytes) (r : Record) : Record :=
  if p.length < 18 then r
  else
    let r' := addStatusWord c (be16 p 16) r
    { r' with cell := (scanCell p p.length 18).or r'.cell }

/-- The extended payload from the speed on (43_payload_decoders.md R119). -/
def a0Speed (c : Config) (p : Bytes) (r : Record) : Record :=
  if p.length < 16 then r else a0StatusWord c p { r with speed := some (byteAt p 15) }

/-- The extended payload from the longitude on (43_payload_decoders.md R118). -/
def a0Longitude (c : Config) (p : Bytes) (r : Record) : Record :=
  if p.length < 15 then r else a0Speed c p { r with lonRaw := acceptRaw (be32 p 11) r.lonRaw }

/-- The extended payload from the latitude on; the byte at offset 6 is skipped (43_payload_decoders.md R116,
R117). -/
def a0Latitude (c : Config) (p : Bytes) (r : Record) : Record :=
  if p.length < 11 then r else a0Longitude c p { r with latRaw := acceptRaw (be32 p 7) r.latRaw }

/-- `PD_GPSLBS_A0`, the extended payload (43_payload_decoders.md R115, R121). -/
def pdGpsLbsA0 (c : Config) (p : Bytes) (r : Record) : Record :=
  if p.length < 6 then r else a0Latitude c p (addGpsTime p r)

/-- The generic path (42_dispatch.md R94). -/
def pdGeneric (p : Bytes) (r : Record) : Record := { r with data := some p }

end Sys2Proof.Machine
end

