-- ==== Sys2Proof/Machine/Dispatcher.lean ====
section
/-!
DEFINITION. The frame decoder and dispatcher (42_dispatch.md): DECODE, and the meaning of each frame kind, which
is one DECODE of one frame (00_scope.md R2 b).
-/

namespace Sys2Proof.Machine

/-- The common fields of a record (42_dispatch.md R86 to R92). -/
def commonFields (f : Bytes) (t : Nat) : Record where
  raw := f
  captureTime := t
  length := byteAt f 2
  protocol := protocolOf f
  protocolName := registryName (protocolOf f)
  serial := serialOf f
  checksum := checksumOf f
  needsResponse := needsAck (protocolOf f)

/-- The registry's decode routine for a protocol code (42_dispatch.md R93). -/
def payloadDecoder (c : Config) (code : Byte) (p : Bytes) (r : Record) : Record :=
  if code = 0x01 then pdLogin p r
  else if code = 0x12 ∨ code = 0x1A then pdGpsLbs c p r
  else if code = 0x13 then pdStatus c.statusBits p r
  else if code = 0x16 then pdAlarm c p r
  else if code = 0xA0 then pdGpsLbsA0 c p r
  else pdGeneric p r

/-- `DECODE(frame, t)` with a given decode routine; `none` is `Fail`, which no decoder of the spec returns
(42_dispatch.md R85, R95; log 20). -/
def decodeWith (pd : Bytes → Record → Record) (f : Bytes) (t : Nat) : Option Record :=
  some (pd (payloadOf f) (commonFields f t))

/-- `DECODE(frame, t)` (42_dispatch.md R85, R93). -/
def decodeFrame (c : Config) (f : Bytes) (t : Nat) : Option Record :=
  decodeWith (payloadDecoder c (protocolOf f)) f t

/-- One decode as an operation of its own: draw the time sample, decode, report (42_dispatch.md R85, R92). `BUF`
is not touched (log 22). -/
def decodeOp (pd : Bytes → Record → Record) (f : Bytes) (s : State) : StepOutcome :=
  complete (s.withDraws (s.draws + 1)) (.decoded (decodeWith pd f (timeSample s.cfg s.draws)))

/-- `LOGIN`, code `0x01` (43_payload_decoders.md R98). -/
def execLogin (f : Bytes) (s : State) : StepOutcome := decodeOp pdLogin f s

/-- `GPS_LBS_STATUS`, code `0x12` (43_payload_decoders.md R112). -/
def execGpsLbsStatus (f : Bytes) (s : State) : StepOutcome := decodeOp (pdGpsLbs s.cfg) f s

/-- `STATUS_INFO`, code `0x13` (43_payload_decoders.md R99). -/
def execStatusInfo (f : Bytes) (s : State) : StepOutcome := decodeOp (pdStatus s.cfg.statusBits) f s

/-- `STRING_INFO`, code `0x15` (42_dispatch.md R94). -/
def execStringInfo (f : Bytes) (s : State) : StepOutcome := decodeOp pdGeneric f s

/-- `ALARM_DATA`, code `0x16` (43_payload_decoders.md R100). -/
def execAlarmData (f : Bytes) (s : State) : StepOutcome := decodeOp (pdAlarm s.cfg) f s

/-- `GPS_LBS_DATA`, code `0x1A` (43_payload_decoders.md R112). -/
def execGpsLbsData (f : Bytes) (s : State) : StepOutcome := decodeOp (pdGpsLbs s.cfg) f s

/-- `GPS_LBS_STATUS_A0`, code `0xA0` (43_payload_decoders.md R121). -/
def execGpsLbsStatusA0 (f : Bytes) (s : State) : StepOutcome := decodeOp (pdGpsLbsA0 s.cfg) f s

/-- Code `0x18`, no name, no decoder (42_dispatch.md R94). -/
def execUnknownAck18 (f : Bytes) (s : State) : StepOutcome := decodeOp pdGeneric f s

/-- Code `0x19`, no name, no decoder (42_dispatch.md R94). -/
def execUnknownAck19 (f : Bytes) (s : State) : StepOutcome := decodeOp pdGeneric f s

/-- Code `0x21`, no name, no decoder (42_dispatch.md R94). -/
def execUnknownAck21 (f : Bytes) (s : State) : StepOutcome := decodeOp pdGeneric f s

/-- Every other code (42_dispatch.md R94). -/
def execUnknown (f : Bytes) (s : State) : StepOutcome := decodeOp pdGeneric f s

end Sys2Proof.Machine
end

