-- ==== Sys2Proof/Machine/Framer.lean ====
section
/-!
DEFINITION. The frame synchronizer and extractor (41_framer.md): one iteration of the framing loop, the loop, the
command `SUBMIT`, and the two frame envelopes, which are the loop's cut, test, decode and consume on one candidate.
-/

namespace Sys2Proof.Machine

/-- What one `SUBMIT` works on: `BUF`, the samples drawn, and the lists `out` and `diag` (10_state.md R19;
41_framer.md R82). -/
structure Framing where
  buf : Bytes
  draws : Nat
  out : List Record
  diag : List Diag
  deriving DecidableEq, Repr

/-- An iteration ends the loop (`break`) or goes round again. -/
inductive Turn where
  | stop (l : Framing)
  | again (l : Framing)
  deriving DecidableEq, Repr

/-- The working values at the top of the loop (41_framer.md R72, R82). -/
def Framing.start (s : State) (b : Bytes) : Framing where
  buf := b
  draws := s.draws
  out := []
  diag := []

/-- The least offset at which a start marker stands (41_framer.md R74). -/
def findMarker : Bytes → Option Nat
  | a :: b :: rest => if isMarker a b then some 0 else (findMarker (b :: rest)).map (· + 1)
  | _ => none

/-- Decode a candidate that ends in the stop marker: draw, DECODE, append the record, or note the failure
(41_framer.md R79). -/
def decodeCandidateFrame (c : Config) (f : Bytes) (l : Framing) : Framing :=
  match decodeFrame c f (timeSample c l.draws) with
  | some r => { l with draws := l.draws + 1, out := l.out ++ [r] }
  | none => { l with draws := l.draws + 1, diag := l.diag ++ [.decodeFail] }

/-- The candidate's stop-marker test and its outcome (41_framer.md R79). -/
def judgeCandidate (c : Config) (f : Bytes) (l : Framing) : Framing :=
  if stopOk f then decodeCandidateFrame c f l
  else { l with diag := l.diag ++ [.badStopDrop f.length] }

/-- A candidate is judged and its bytes are consumed, whatever the outcome (41_framer.md R79, R80). -/
def takeCandidate (c : Config) (f : Bytes) (l : Framing) : Framing :=
  let l' := judgeCandidate c f l
  { l' with buf := Memory.dropPrefix l'.buf f.length }

/-- Steps 2b to 2f with the marker at offset 0 (41_framer.md R77 to R80). -/
def turnAtMarker (c : Config) (l : Framing) : Turn :=
  if l.buf.length < 5 then .stop l
  else if l.buf.length < candidateSize l.buf then .stop l
  else .again (takeCandidate c (l.buf.take (candidateSize l.buf)) l)

/-- The lead-in of `i` bytes is discarded (41_framer.md R76). -/
def skipLeadIn (i : Nat) (l : Framing) : Framing :=
  { l with
    buf := Memory.dropPrefix l.buf i
    diag := if 0 < i then l.diag ++ [.garbageSkipped i] else l.diag }

/-- One iteration of the framing loop (41_framer.md R73 to R80; order of checks 60_exceptions.md R140). -/
def turn (c : Config) (l : Framing) : Turn :=
  if l.buf.length < 5 then .stop l
  else match findMarker l.buf with
    | none => .stop { l with buf := [], diag := l.diag ++ [.noMarkerFlush l.buf.length] }
    | some i => turnAtMarker c (skipLeadIn i l)

/-- The framing loop (41_framer.md R82). The second argument bounds the iterations; every one that does not stop
removes at least 5 bytes (P1), so `len(BUF) + 1` is always enough (log 14). -/
def frameLoop (c : Config) : Nat → Framing → Framing
  | 0, l => l
  | k + 1, l =>
    match turn c l with
    | .stop l' => l'
    | .again l' => frameLoop c k l'

/-- The whole loop on the working values. -/
def runFramer (c : Config) (l : Framing) : Framing := frameLoop c (l.buf.length + 1) l

/-- A `SUBMIT` ends: `BUF` and the samples drawn are written back, `Ok(out, diag)` is the result (41_framer.md
R81). -/
def finishFraming (s : State) (l : Framing) : StepOutcome :=
  complete ((s.withBuf l.buf).withDraws l.draws) (.ok l.out l.diag)

/-- The chunk fits: `len(BUF) + len(chunk) <= BUF_CAP`, and `len(chunk) <= MAX_CHUNK` (41_framer.md R71;
log 12). -/
def chunkFits (s : State) (chunk : Bytes) : Bool :=
  within s.cfg.bufCap (s.buf.length + chunk.length) && within s.cfg.maxChunk chunk.length

/-- `SUBMIT(chunk)` (41_framer.md R82). -/
def execSubmit (chunk : Bytes) (s : State) : StepOutcome :=
  if chunkFits s chunk then
    finishFraming s (runFramer s.cfg (Framing.start s (Memory.append s.buf chunk)))
  else refuse s .overflow

/-- One candidate as an operation of its own (41_framer.md R79, R80; log 23). -/
def candidateOp (f : Bytes) (s : State) : StepOutcome :=
  finishFraming s (takeCandidate s.cfg f (Framing.start s s.buf))

/-- `FRAME_STD`, a candidate that begins `78 78` (41_framer.md R79, R80). -/
def execFrameStd (f : Bytes) (s : State) : StepOutcome := candidateOp f s

/-- `FRAME_EXT`, a candidate that begins `79 79`, treated identically (30_encoding.md R41; 41_framer.md R79, R80). -/
def execFrameExt (f : Bytes) (s : State) : StepOutcome := candidateOp f s

end Sys2Proof.Machine
end

