-- ==== Sys2Proof/Machine/Dispatch.lean ====
section
/-!
DEFINITION. The meaning of every instruction, one arm per row of spec/opcode_table.json.
-/

namespace Sys2Proof.Machine

def exec (i : Instr) (s : State) : Host.Outcome State Fault Refusal :=
  match i with
  | .reset => Sys2Proof.Machine.execReset s
  | .submit chunk => Sys2Proof.Machine.execSubmit chunk s
  | .buildAck serial code => Sys2Proof.Machine.execBuildAck serial code s
  | .crc16 data => Sys2Proof.Machine.execCrc16 data s
  | .crcFirst b => Sys2Proof.Machine.execCrcFirst b s
  | .crcNext b => Sys2Proof.Machine.execCrcNext b s
  | .reserved110 operands => Sys2Proof.Machine.execReserved110 operands s
  | .reserved111 operands => Sys2Proof.Machine.execReserved111 operands s
  | .frameStd frame => Sys2Proof.Machine.execFrameStd frame s
  | .frameExt frame => Sys2Proof.Machine.execFrameExt frame s
  | .login frame => Sys2Proof.Machine.execLogin frame s
  | .gpsLbsStatus frame => Sys2Proof.Machine.execGpsLbsStatus frame s
  | .statusInfo frame => Sys2Proof.Machine.execStatusInfo frame s
  | .stringInfo frame => Sys2Proof.Machine.execStringInfo frame s
  | .alarmData frame => Sys2Proof.Machine.execAlarmData frame s
  | .gpsLbsData frame => Sys2Proof.Machine.execGpsLbsData frame s
  | .gpsLbsStatusA0 frame => Sys2Proof.Machine.execGpsLbsStatusA0 frame s
  | .unknownAck18 frame => Sys2Proof.Machine.execUnknownAck18 frame s
  | .unknownAck19 frame => Sys2Proof.Machine.execUnknownAck19 frame s
  | .unknownAck21 frame => Sys2Proof.Machine.execUnknownAck21 frame s
  | .unknown frame => Sys2Proof.Machine.execUnknown frame s
  | .ackFrame serial code => Sys2Proof.Machine.execAckFrame serial code s

end Sys2Proof.Machine
end

