-- ==== Sys2Proof/Machine/Fetch.lean ====
section
/-!
DEFINITION. What stands next on the ports, and how a word of spec/opcode_table.json is put there (10_state.md R22;
20_memory.md R25, R37; log 1, log 3, log 4).
-/

namespace Sys2Proof.Machine

/-- The bits a request stands for; a candidate's are the bytes at the head of `BUF` (20_memory.md R25 b). -/
def present (r : Request) (b : Bytes) : Code :=
  match r with
  | .command cmd ops => .command cmd ops
  | .candidate => .candidate b
  | .dispatch f => .dispatch f
  | .ackOut o => .ackOut o

/-- Run the request, which has been taken off the port. A candidate that is not complete is left in `BUF`, waiting
(41_framer.md R77, R78; 60_exceptions.md R134; log 21). -/
def runRequest (r : Request) (s : State) : StepOutcome :=
  match decode (present r s.buf) with
  | .ok i => exec i s
  | .error why => if why.waits then .next s else .refused (.rejected why)

/-- One step: the oldest request on the port; none, and the block does nothing (60_exceptions.md R146; log 17). -/
def stepPort (s : State) : StepOutcome :=
  match s.port with
  | [] => .next s
  | r :: rest => runRequest r (s.withPort rest)

/-- Put an encoded operation where the next step meets it: first on the port, a candidate over the bytes at the
head of `BUF`. -/
def placeCode (c : Code) (s : State) : State :=
  match c with
  | .command cmd ops => s.withPort (.command cmd ops :: s.port)
  | .candidate b => (s.withBuf (b ++ s.buf.drop b.length)).withPort (.candidate :: s.port)
  | .dispatch f => s.withPort (.dispatch f :: s.port)
  | .ackOut b => s.withPort (.ackOut b :: s.port)

/-- Put a table word where the next step meets it (log 4); a width the table does not use changes nothing. -/
def placeTableWord (s : State) (nbits w : Nat) : State :=
  match tableCode nbits w with
  | some c => placeCode c s
  | none => s

end Sys2Proof.Machine
end

