-- ==== Sys2Proof/Machine/Step.lean ====
section
/-!
DEFINITION. One step of the machine, and the placing of a word of spec/opcode_table.json for the next step (log 4).
-/

namespace Sys2Proof.Machine

/-- One step: one command, atomic (20_memory.md R33; 70_reset_and_hazards.md R166). -/
def step : State → Host.Outcome State Fault Refusal := stepPort

/-- The state with a table word placed where the next step fetches. -/
def State.withFetchWord (s : State) (nbits w : Nat) : State := placeTableWord s nbits w

end Sys2Proof.Machine
end

