-- ==== Sys2Proof/Machine/Assembler.lean ====
section
/-!
DEFINITION. The pseudo-commands of 30_encoding.md R59, as the commands and bytes they expand to.
-/

namespace Sys2Proof.Machine

/-- `FRAME(s, code, payload, serial, crc)` (30_encoding.md R59); requires `len(payload) <= 250`. -/
def frameBytes (s code : Byte) (payload : Bytes) (serial crc : BitVec 16) : Bytes :=
  [s, s, BitVec.ofNat 8 (payload.length + 5), code] ++ payload ++ bytesBE16 serial ++ bytesBE16 crc ++ [0x0D, 0x0A]

/-- `FRAMEC(s, code, payload, serial)`: the checksum field filled as the acknowledgment builder fills its own
(30_encoding.md R59). -/
def framecBytes (s code : Byte) (payload : Bytes) (serial : BitVec 16) : Bytes :=
  frameBytes s code payload serial
    (crc16 ([BitVec.ofNat 8 (payload.length + 5), code] ++ payload ++ bytesBE16 serial))

/-- A `SUBMIT` command on the port (30_encoding.md R48). -/
def submitCmd (chunk : Bytes) : Request := .command 1 chunk

/-- `SUBMIT_SPLIT(k, bytes)` (30_encoding.md R59). -/
def submitSplit (k : Nat) (bytes : Bytes) : List Request := [submitCmd (bytes.take k), submitCmd (bytes.drop k)]

/-- `CRC_STREAM(b0 .. bn)` (30_encoding.md R59). -/
def crcStream : Bytes → List Request
  | [] => []
  | b :: rest => .command 4 [b] :: rest.map fun x => .command 5 [x]

end Sys2Proof.Machine
end

