-- ==== Sys2Proof/Machine/Render.lean ====
section
/-!
DEFINITION. The rendering functions of 00_scope.md R11. The hardware carries the bytes and integers; these give
the document's text and degree values, to compare with.
-/

namespace Sys2Proof.Machine

/-- `COORD_SCALE` (00_scope.md R7). -/
def coordScale : Nat := 1800000

/-- The upper-case hexadecimal digit of a nibble. -/
def hexDigit (n : Nat) : Char := "0123456789ABCDEF".toList.getD n '0'

/-- The characters of `hexU(s)`: two digits a byte, most-significant nibble first (00_scope.md R11). -/
def hexChars (s : Bytes) : List Char := s.flatMap fun b => [hexDigit (b.toNat / 16), hexDigit (b.toNat % 16)]

/-- `hexU(s)` (00_scope.md R11). -/
def hexU (s : Bytes) : String := String.ofList (hexChars s)

/-- `deg(r) = r / 1,800,000`, exact (00_scope.md R11). -/
def deg (r : Int) : Rat := (r : Rat) / (coordScale : Rat)

/-- `nameStr(n)`, as 30_encoding.md R50 spells it (00_scope.md R11). -/
def nameStr : ProtocolName → String
  | .unknown => "UNKNOWN"
  | .login => "LOGIN"
  | .gpsLbsStatus => "GPS_LBS_STATUS"
  | .statusInfo => "STATUS_INFO"
  | .stringInfo => "STRING_INFO"
  | .alarmData => "ALARM_DATA"
  | .gpsLbsData => "GPS_LBS_DATA"
  | .gpsLbsStatusA0 => "GPS_LBS_STATUS_A0"

end Sys2Proof.Machine
end

