-- ==== Sys2Proof/Safety.lean ====
section
/-!
DEFINITION. What counts as a safe run, and the terms the statements use: the buffer's post-state of 41_framer.md
R82 (P2), the invariant every step keeps, runs of several instructions, and the parts of a decoded record.
-/

namespace Sys2Proof.Machine

/-- 41_framer.md R82 (P2): fewer than 5 bytes, or an incomplete candidate behind a start marker. -/
def framed (b : Bytes) : Bool :=
  decide (b.length < 5) || (markerAtHead b && decide (b.length < candidateSize b))

/-- The invariant: `BUF` is in the form of P2 and within `BUF_CAP` (10_state.md R14; 41_framer.md R82). -/
def Inv (s : State) : Prop := framed s.buf = true ∧ Memory.wf s.cfg s.buf = true

/-- A start marker stands at offset `i`: two equal bytes, both `0x78` or both `0x79` (30_encoding.md R41). -/
def MarkerAt (b : Bytes) (i : Nat) : Prop :=
  ∃ v : Byte, (v = 0x78 ∨ v = 0x79) ∧ b[i]? = some v ∧ b[i + 1]? = some v

/-- `i` is the least offset at which a start marker stands (41_framer.md R74). -/
def LeastMarker (b : Bytes) (i : Nat) : Prop := MarkerAt b i ∧ ∀ j, j < i → ¬ MarkerAt b j

/-- The event of a dropped lead-in, none for an empty one (41_framer.md R76). -/
def skipEvents (i : Nat) : List Diag := if 0 < i then [.garbageSkipped i] else []

/-- Instructions executed one after another, as a host issues them (20_memory.md R37). -/
def execAll : List Instr → State → StepOutcome
  | [], s => .next s
  | i :: rest, s =>
    match exec i s with
    | .next t => execAll rest t
    | .fault r => .fault r
    | .refused r => .refused r

/-- The instruction completes one DECODE with the record `r` (42_dispatch.md R85): a sample is drawn, the record is
the result, nothing else changes. -/
def Decodes (i : Instr) (s : State) (r : Record) : Prop :=
  exec i s = .next ((s.withDraws (s.draws + 1)).withResult (.decoded (some r)))

/-- The frame a frame kind decodes (00_scope.md R2 b). -/
def kindFrame : Instr → Option Bytes
  | .login f | .gpsLbsStatus f | .statusInfo f | .stringInfo f | .alarmData f | .gpsLbsData f => some f
  | .gpsLbsStatusA0 f | .unknownAck18 f | .unknownAck19 f | .unknownAck21 f | .unknown f => some f
  | .reset | .submit _ | .buildAck _ _ | .crc16 _ | .crcFirst _ | .crcNext _ => none
  | .reserved110 _ | .reserved111 _ | .frameStd _ | .frameExt _ | .ackFrame _ _ => none

/-- The bytes `g` that a frame kind hands to the standard GPS/LBS decoder (30_encoding.md R52): the payload, or the
payload behind the alarm byte. -/
def gpsBlock : Instr → Option Bytes
  | .gpsLbsStatus f | .gpsLbsData f => some (payloadOf f)
  | .alarmData f => if payloadOf f = [] then none else some ((payloadOf f).drop 1)
  | _ => none

/-- A byte of a sequence as a number. -/
def nth (b : Bytes) (k : Nat) : Nat := (b.getD k 0).toNat

/-- The fields that do not come from the common part (30_encoding.md R52) are absent. -/
def onlyCommon (r : Record) : Prop :=
  r = { raw := r.raw, captureTime := r.captureTime, length := r.length, protocol := r.protocol,
        protocolName := r.protocolName, serial := r.serial, checksum := r.checksum,
        needsResponse := r.needsResponse }

/-- The record without its capture time, for comparing runs that draw different samples (41_framer.md R82 P5). -/
def untimed (r : Record) : Record := { r with captureTime := 0 }

/-- The protocol codes of the standard GPS/LBS decoder (43_payload_decoders.md R101). -/
def standardGps (code : Byte) : Bool := code == 0x12 || code == 0x1A || code == 0x16

/-- The presence invariants of a record (43_payload_decoders.md R123), as implications between its fields. Those
about fields of one group hold by the record's form. -/
def Present (r : Record) : Prop :=
  (r.deviceType.isSome → r.terminalId.isSome) ∧
  (r.timezone.isSome → r.deviceType.isSome) ∧
  (r.voltageLevel.isSome ∨ r.gsmSignalStrength.isSome ∨ r.alarmCode.isSome ∨ r.languageCode.isSome →
    r.status.isSome) ∧
  (r.latitude.isSome ↔ r.latRaw.isSome ∧ r.fix.isSome) ∧
  (r.longitude.isSome ↔ r.lonRaw.isSome ∧ r.fix.isSome) ∧
  (r.cell.isSome → r.fix.isSome) ∧
  (standardGps r.protocol → r.fix.isSome →
    r.speed.isSome ∧ r.lonRaw.isSome ∧ r.latRaw.isSome ∧ r.satellites.isSome) ∧
  (r.protocol = 0xA0 → r.satellites = none ∧ r.additionalData = none) ∧
  (r.data.isSome ↔ r.protocol ∉ [(0x01 : Byte), 0x12, 0x13, 0x16, 0x1A, 0xA0]) ∧
  (r.terminalId.isSome → r.protocol = 0x01) ∧
  (r.status.isSome → r.protocol = 0x13) ∧
  (r.alarmType.isSome → r.protocol = 0x16) ∧
  (r.gpsTime.isSome ∨ r.latRaw.isSome ∨ r.lonRaw.isSome ∨ r.speed.isSome ∨ r.fix.isSome →
    standardGps r.protocol ∨ r.protocol = 0xA0) ∧
  (r.satellites.isSome ∨ r.additionalData.isSome → standardGps r.protocol)

/-- The presence of the status payload's trailing bytes, in the default order (43_payload_decoders.md R99, R123). -/
def TrailingPresent (r : Record) : Prop :=
  (r.languageCode.isSome → r.alarmCode.isSome) ∧ (r.alarmCode.isSome → r.gsmSignalStrength.isSome) ∧
  (r.gsmSignalStrength.isSome → r.voltageLevel.isSome) ∧ (r.voltageLevel.isSome → r.status.isSome)

/-- The records of a stream of candidates, each decoded with its own sample (41_framer.md R79, R81). -/
def streamRecords (c : Config) : Nat → List Bytes → List Record
  | _, [] => []
  | k, f :: fs =>
    if stopOk f then (decodeFrame c f (timeSample c k)).toList ++ streamRecords c (k + 1) fs
    else streamRecords c k fs

/-- The events of a stream of candidates: one for each wrong stop marker (41_framer.md R79). -/
def streamEvents (fs : List Bytes) : List Diag :=
  (fs.filter fun f => !stopOk f).map fun f => .badStopDrop f.length

end Sys2Proof.Machine
end

