-- ==== Sys2Proof/Certificates/Slice0/Obligations.lean ====
section
/-!
DEFINITION. The statements for the provers, from the numbered rules of spec/. `s.withX v` is `s` with that one
field replaced, so every equation of a next state is also the frame: nothing else changes, no byte of `BUF`, no
parameter, no register, no port.
-/

open Sys2Proof Sys2Proof.Machine

/-! ## The step -/

/-- When the oldest request on the port decodes to an instruction, the step takes the request off the port and is that
instruction's `exec`. The port as a list is the model's choice (log 1), and so are requests other than commands
(log 3); 20_memory.md R33 and R37 give only that commands run whole, one at a time, in the order issued. -/
def Obligations.StepRunsDecodedRequest : Prop :=
  ∀ (s : State) (r : Request) (rest : List Request) (i : Instr),
    s.port = r :: rest → decode (present r s.buf) = .ok i → step s = exec i (s.withPort rest)

/-- 60_exceptions.md R146 and R134: with nothing on the port the block holds its state; a candidate request met by
an incomplete candidate leaves everything but the port (log 17, log 21). -/
def Obligations.StepWaitsWithoutWork : Prop :=
  (∀ s : State, s.port = [] → step s = .next s) ∧
  (∀ (s : State) (rest : List Request), s.port = .candidate :: rest → MarkerAt s.buf 0 →
    (s.buf.length < 5 ∨ s.buf.length < nth s.buf 2 + 5) → step s = .next (s.withPort rest))

/-- 60_exceptions.md R131: nothing faults; every instruction completes, from every state; and a step stops only where
the oldest request on the port is no instruction of the spec. -/
def Obligations.NothingFaultsOrHangs : Prop :=
  (∀ (i : Instr) (s : State), ∃ t, exec i s = .next t) ∧
  (∀ s : State, (∃ t, step s = .next t) ∨
    (∃ (r : Request) (rest : List Request) (why : Reject), s.port = r :: rest ∧
      decode (present r s.buf) = .error why ∧ step s = .refused (.rejected why)))

/-- 10_state.md R14; 41_framer.md R82 (P2): every step keeps the buffer in its form. -/
def Obligations.StepKeepsFramedBuffer : Prop :=
  ∀ s t : State, Inv s → step s = .next t → Inv t

/-- 10_state.md R23: reset meets the invariant. -/
def Obligations.ResetMeetsInvariant : Prop := Inv State.reset

/-- 10_state.md R18; 93_implementation_defined.md U19; 10_state.md R21, R17: no instruction writes a parameter or
the port, and none depends on the result an earlier one left. -/
def Obligations.ParametersFixedResultsUnread : Prop :=
  ∀ (i : Instr) (s t : State) (r : Result), exec i s = .next t →
    t.cfg = s.cfg ∧ t.port = s.port ∧ exec i (s.withResult r) = .next t

/-- 10_state.md R14; 40_crc.md R63; 70_reset_and_hazards.md R162: of the commands, the decodes and the acknowledgment
output only SUBMIT and RESET write `BUF`, for the others every byte reads as before; only the two beats write the
streaming `CRCR`. -/
def Obligations.WhoWritesBufferAndCrcr : Prop :=
  ∀ (i : Instr) (s t : State), exec i s = .next t →
    ((i ≠ .reset ∧ (∀ c, i ≠ .submit c) ∧ (∀ f, i ≠ .frameStd f) ∧ (∀ f, i ≠ .frameExt f)) →
      ∀ a, Memory.byte t.buf a = Memory.byte s.buf a) ∧
    ((∀ b, i ≠ .crcFirst b) → (∀ b, i ≠ .crcNext b) → t.crcr = s.crcr ∧ (i ≠ .reset → t.crcOpen = s.crcOpen))

/-! ## Reset and the reserved codes -/

/-- 10_state.md R23; 00_scope.md R8: after reset `BUF` is empty and the parameters have the defaults. -/
def Obligations.ResetStateOfTheSpec : Prop :=
  State.reset.buf = [] ∧ State.reset.cfg.bufCap = none ∧ State.reset.cfg.maxChunk = none ∧
  State.reset.cfg.tsW = 64 ∧ State.reset.cfg.hemiNegWhenSet = true ∧
  State.reset.cfg.statusBits = StatusBits.default

/-- 70_reset_and_hazards.md R147: RESET empties `BUF`, has no result, and does not touch `CRCR`. That its message is
no longer open is the reading of log 9. -/
def Obligations.ResetCommandEmptiesBuffer : Prop :=
  ∀ s : State, exec .reset s = .next (((s.withBuf []).withCrcOpen false).withResult .noResult)

/-- 60_exceptions.md R138; 30_encoding.md R49: codes 110 and 111 change nothing and report `ReservedCommand`. -/
def Obligations.ReservedCodesRefused : Prop :=
  ∀ (ops : Bytes) (s : State),
    decode (.command 0b110 ops) = .ok (.reserved110 ops) ∧ decode (.command 0b111 ops) = .ok (.reserved111 ops) ∧
    exec (.reserved110 ops) s = .next (s.withResult (.refused .reservedCommand)) ∧
    exec (.reserved111 ops) s = .next (s.withResult (.refused .reservedCommand))

/-! ## The CRC generator -/

/-- 40_crc.md R60 in arithmetic; R61: exclusive-or into the low byte, then eight bit steps; its worked example. -/
def Obligations.CrcBitAndByteSteps : Prop :=
  (∀ c : BitVec 16,
    (crcStep c).toNat = (if c.toNat % 2 = 1 then (c.toNat / 2) ^^^ 0x8408 else c.toNat / 2) ∧
    (crcStep c).toNat < 0x10000) ∧
  (∀ (c : BitVec 16) (b : Byte), crcByte c b = crcStep^[8] (c ^^^ b.zeroExtend 16)) ∧
  (List.range 8).map (fun k => crcStep^[k + 1] 0xFFFE) =
    [0x7FFF, 0xBBF7, 0xD9F3, 0xE8F1, 0xF070, 0x7838, 0x3C1C, 0x1E0E] ∧
  crcByte 0xFFFF 0x01 = 0x1E0E

/-- 40_crc.md R62: code 011 is CRC16, of any data and from every state; nothing but the result is written. -/
def Obligations.Crc16Command : Prop :=
  (∀ (data : Bytes) (s : State), decode (.command 0b011 data) = .ok (.crc16 data) ∧
    exec (.crc16 data) s = .next (s.withResult (.crc (~~~ (data.foldl crcByte 0xFFFF))))) ∧
  ~~~ (([] : Bytes).foldl crcByte 0xFFFF) = 0x0000 ∧ ~~~ ([(0x01 : Byte)].foldl crcByte 0xFFFF) = 0xE1F1

/-- 40_crc.md R63: the two streaming beats; CRC_NEXT with no CRC_FIRST since reset is refused, with no state change
(93_implementation_defined.md U7; log 9). -/
def Obligations.CrcStreamingBeats : Prop :=
  ∀ (b : Byte) (s : State),
    exec (.crcFirst b) s = .next (((s.withCrcr (crcByte 0xFFFF b)).withCrcOpen true).withResult
      (.crc (~~~ (crcByte 0xFFFF b)))) ∧
    (s.crcOpen = true → exec (.crcNext b) s = .next ((s.withCrcr (crcByte s.crcr b)).withResult
      (.crc (~~~ (crcByte s.crcr b))))) ∧
    (s.crcOpen = false → exec (.crcNext b) s = .next (s.withResult (.refused .noCrcMessage)))

/-- The law of 40_crc.md R63: a streamed message ends with the CRC of the whole message, whatever the register held
before, and `BUF` is not touched. -/
def Obligations.StreamedCrcEqualsCrc16 : Prop :=
  ∀ (b : Byte) (rest : Bytes) (s : State), ∃ t,
    execAll (.crcFirst b :: rest.map .crcNext) s = .next t ∧
    exec (.crc16 (b :: rest)) s = .next (s.withResult t.result) ∧
    t = ((s.withCrcr t.crcr).withCrcOpen true).withResult t.result

/-- The table form and the table entries, an inference the spec marks as its own: "Table form [derived: from rules R60
and R61, by linearity of `crc_step` over exclusive-or]" (40_crc.md R65). -/
def Obligations.CrcTableForm : Prop :=
  (∀ (c : BitVec 16) (b : Byte), crcByte c b = (c >>> 8) ^^^ crcByte 0 (c.truncate 8 ^^^ b)) ∧
  (List.range 16).map (fun x => crcByte 0 (BitVec.ofNat 8 x)) =
    [0x0000, 0x1189, 0x2312, 0x329B, 0x4624, 0x57AD, 0x6536, 0x74BF,
     0x8C48, 0x9DC1, 0xAF5A, 0xBED3, 0xCA6C, 0xDBE5, 0xE97E, 0xF8F7] ∧
  crcByte 0 0x80 = 0x8408 ∧ crcByte 0 0xFF = 0x0F78

/-- An inference the spec marks as its own: "Properties [derived: from rules R60 to R62], offered as test obligations"
(40_crc.md R67). (a): four values; (b): the residue of a message followed by its CRC, low byte first; (c): one byte
step is a bijection of the register and injective in the byte, and messages of one length that differ in exactly one
byte have different CRCs. -/
def Obligations.CrcResidueAndSeparation : Prop :=
  (crc16 [] = 0x0000 ∧ crc16 [0x00] = 0xF078 ∧ crc16 [0xFF] = 0xFF00 ∧ crc16 [0x01] = 0xE1F1) ∧
  (∀ (data : Bytes) (lo hi : Byte), crc16 data = hi ++ lo →
    (data ++ [lo, hi]).foldl crcByte 0xFFFF = 0xF0B8 ∧ crc16 (data ++ [lo, hi]) = 0x0F47) ∧
  (∀ b : Byte, Function.Bijective fun c => crcByte c b) ∧
  (∀ c : BitVec 16, Function.Injective (crcByte c)) ∧
  (∀ (pre post : Bytes) (x y : Byte), x ≠ y → crc16 (pre ++ x :: post) ≠ crc16 (pre ++ y :: post))

/-- The bit-serial view, data bit `b[0]` first, and the taps of `0x8408`, an inference the spec marks as its own:
"[derived: from rules R60 and R61]: `crc_byte(c, b)` equals eight iterations" (40_crc.md R68). -/
def Obligations.CrcBitSerialView : Prop :=
  (∀ (c : BitVec 16) (b : Byte), crcByte c b =
    (List.range 8).foldl (fun (r : BitVec 16) j =>
      if (r.getLsbD 0 ^^ b.getLsbD j) then (r >>> 1) ^^^ 0x8408 else r >>> 1) c) ∧
  (∀ i, (0x8408 : BitVec 16).getLsbD i = true ↔ i = 15 ∨ i = 10 ∨ i = 3)

/-! ## The acknowledgment builder -/

/-- 44_ack.md R126, R127: the 10 bytes, the CRC over the length, code and serial bytes, high byte first. -/
def Obligations.BuildAckFrame : Prop :=
  ∀ (sh sl code ch cl : Byte) (s : State), crc16 [0x05, code, sh, sl] = ch ++ cl →
    exec (.buildAck (sh ++ sl) code) s =
      .next (s.withResult (.frame [0x78, 0x78, 0x05, code, sh, sl, ch, cl, 0x0D, 0x0A]))

/-- 30_encoding.md R47: the acknowledgment frame as an operation of its own (log 3) puts out the ten bytes of the
pattern; those bytes at the acknowledgment output decode back to it; BUILD_ACK answers the same. -/
def Obligations.AckFrameOutput : Prop :=
  ∀ (sh sl code ch cl : Byte) (s : State), crc16 [0x05, code, sh, sl] = ch ++ cl →
    exec (.ackFrame (sh ++ sl) code) s =
      .next (s.withResult (.frame [0x78, 0x78, 0x05, code, sh, sl, ch, cl, 0x0D, 0x0A])) ∧
    decode (.ackOut [0x78, 0x78, 0x05, code, sh, sl, ch, cl, 0x0D, 0x0A]) = .ok (.ackFrame (sh ++ sl) code) ∧
    exec (.buildAck (sh ++ sl) code) s = exec (.ackFrame (sh ++ sl) code) s

/-- 44_ack.md R128; 42_dispatch.md R96, last row: an acknowledgment fed to SUBMIT yields one record, with the high
bytes of the serial and of the CRC. -/
def Obligations.AckLoopsBack : Prop :=
  ∀ (sh sl code ch cl : Byte) (s : State), crc16 [0x05, code, sh, sl] = ch ++ cl → s.buf = [] →
    chunkFits s [0x78, 0x78, 0x05, code, sh, sl, ch, cl, 0x0D, 0x0A] = true →
    ∃ r, exec (.submit [0x78, 0x78, 0x05, code, sh, sl, ch, cl, 0x0D, 0x0A]) s =
        .next ((s.withDraws (s.draws + 1)).withResult (.ok [r] [])) ∧
      r.length = 5 ∧ r.protocol = code ∧ r.serial = some sh ∧ r.checksum = ch ∧
      r.raw = [0x78, 0x78, 0x05, code, sh, sl, ch, cl, 0x0D, 0x0A]

/-- 20_memory.md R37 (O5): the CRC commands and BUILD_ACK commute with SUBMIT; CRC16 and BUILD_ACK with RESET too (the
beats and RESET: log 9). -/
def Obligations.CrcAndAckCommute : Prop :=
  ∀ (i j : Instr) (s : State),
    ((∃ d, i = .crc16 d) ∨ (∃ n c, i = .buildAck n c) ∨
      ((∃ b, i = .crcFirst b ∨ i = .crcNext b) ∧ j ≠ .reset)) →
    ((∃ chunk, j = .submit chunk) ∨ j = .reset) →
    ∃ a b a' b', exec i s = .next a ∧ exec j a = .next b ∧ exec j s = .next a' ∧ exec i a' = .next b' ∧
      b.result = a'.result ∧ b'.result = a.result ∧ b'.withResult b.result = b

/-! ## The framer -/

/-- 41_framer.md R74; 30_encoding.md R41: the scan finds the least offset of a start marker, and none only where there
is none. -/
def Obligations.MarkerScanFindsFirst : Prop :=
  (∀ (b : Bytes) (i : Nat), findMarker b = some i ↔ LeastMarker b i) ∧
  (∀ b : Bytes, findMarker b = none ↔ ∀ i, ¬ MarkerAt b i)

/-- 41_framer.md R71: a chunk that does not fit `BUF_CAP`, or is longer than `MAX_CHUNK`, is refused, `BUF` unchanged,
no record; with no capacity, or room for 259 bytes and the chunk, no SUBMIT on a framed buffer is. -/
def Obligations.SubmitCapacity : Prop :=
  ∀ (chunk : Bytes) (s : State),
    (((∃ cap, s.cfg.bufCap = some cap ∧ cap < s.buf.length + chunk.length) ∨
      (∃ m, s.cfg.maxChunk = some m ∧ m < chunk.length)) →
      exec (.submit chunk) s = .next (s.withResult (.refused .overflow))) ∧
    (framed s.buf = true → (∀ cap, s.cfg.bufCap = some cap → 259 + chunk.length ≤ cap) →
      (∀ m, s.cfg.maxChunk = some m → chunk.length ≤ m) →
      ∃ t rs ds, exec (.submit chunk) s = .next t ∧ t.result = .ok rs ds)

/-- 41_framer.md R70, R72, R81; 20_memory.md R28, R37 (O2): a SUBMIT that fits completes with `Ok`, writes `BUF`, the
result and the count of samples alone, draws one sample a record, and the bytes left in `BUF` are the last ones of
`BUF ++ chunk`, each as it was. -/
def Obligations.SubmitCompletesAndFrames : Prop :=
  ∀ (chunk : Bytes) (s : State), chunkFits s chunk = true → ∃ b rs ds,
    exec (.submit chunk) s =
      .next (((s.withBuf b).withDraws (s.draws + rs.length)).withResult (.ok rs ds)) ∧
    b.length ≤ (s.buf ++ chunk).length ∧
    ∀ a, Memory.byte b a = Memory.byte (s.buf ++ chunk) ((s.buf ++ chunk).length - b.length + a)

/-- 41_framer.md R73; 70_reset_and_hazards.md R159: fewer than 5 bytes are kept, whatever they are. -/
def Obligations.SubmitKeepsShortResidue : Prop :=
  ∀ (chunk : Bytes) (s : State), chunkFits s chunk = true → (s.buf ++ chunk).length < 5 →
    exec (.submit chunk) s = .next ((s.withBuf (s.buf ++ chunk)).withResult (.ok [] []))

/-- 41_framer.md R75; 60_exceptions.md R136: 5 bytes or more and no start marker: the whole buffer goes, a final lone
`0x78` or `0x79` with it. -/
def Obligations.SubmitFlushesWithoutMarker : Prop :=
  ∀ (chunk : Bytes) (s : State), chunkFits s chunk = true → 5 ≤ (s.buf ++ chunk).length →
    (∀ i, ¬ MarkerAt (s.buf ++ chunk) i) →
    exec (.submit chunk) s =
      .next ((s.withBuf []).withResult (.ok [] [.noMarkerFlush (s.buf ++ chunk).length]))

/-- 41_framer.md R76, R77, R78; 60_exceptions.md R132, R134: the lead-in goes, and an incomplete candidate is kept. -/
def Obligations.SubmitKeepsIncompleteCandidate : Prop :=
  ∀ (chunk b : Bytes) (i : Nat) (s : State), chunkFits s chunk = true → 5 ≤ (s.buf ++ chunk).length →
    LeastMarker (s.buf ++ chunk) i → b = (s.buf ++ chunk).drop i →
    (b.length < 5 ∨ b.length < nth b 2 + 5) →
    exec (.submit chunk) s = .next ((s.withBuf b).withResult (.ok [] (skipEvents i)))

/-- 41_framer.md R76 to R82; 60_exceptions.md R133, R140: a complete candidate behind the lead-in is decoded iff it
ends `0D 0A`, its bytes go in either case, and the loop goes on as a SUBMIT of nothing on what is left. -/
def Obligations.SubmitTakesCompleteCandidate : Prop :=
  ∀ (chunk b f : Bytes) (i : Nat) (s u : State) (rs : List Record) (ds : List Diag),
    chunkFits s chunk = true → 5 ≤ (s.buf ++ chunk).length → LeastMarker (s.buf ++ chunk) i →
    b = (s.buf ++ chunk).drop i → 5 ≤ b.length → nth b 2 + 5 ≤ b.length → f = b.take (nth b 2 + 5) →
    u.result = .ok rs ds →
    (f.drop (f.length - 2) = [0x0D, 0x0A] →
      exec (.submit []) ((s.withBuf (b.drop f.length)).withDraws (s.draws + 1)) = .next u →
      exec (.submit chunk) s = .next (u.withResult
        (.ok ((decodeFrame s.cfg f (timeSample s.cfg s.draws)).toList ++ rs) (skipEvents i ++ ds)))) ∧
    (f.drop (f.length - 2) ≠ [0x0D, 0x0A] →
      exec (.submit []) (s.withBuf (b.drop f.length)) = .next u →
      exec (.submit chunk) s = .next (u.withResult
        (.ok rs (skipEvents i ++ .badStopDrop f.length :: ds))))

/-- 41_framer.md R82 (P2), (P3): after a SUBMIT that is not refused the buffer is framed and holds at most 259 bytes. -/
def Obligations.SubmitPostState : Prop :=
  ∀ (chunk : Bytes) (s t : State), chunkFits s chunk = true → exec (.submit chunk) s = .next t →
    (t.buf.length < 5 ∨ (MarkerAt t.buf 0 ∧ 5 ≤ t.buf.length ∧ t.buf.length < nth t.buf 2 + 5)) ∧
    t.buf.length ≤ 259

/-- 41_framer.md R84 (a), R82 (P4): an empty chunk changes nothing and yields nothing, on every framed buffer. -/
def Obligations.EmptyChunkChangesNothing : Prop :=
  ∀ s : State, Inv s → exec (.submit []) s = .next (s.withResult (.ok [] []))

/-- 41_framer.md R82 (P5): the buffer, the events, and the records but for their capture times depend on `BUF`, the
chunk and the parameters alone. -/
def Obligations.SubmitIndependentOfSamples : Prop :=
  ∀ (chunk : Bytes) (s s' t t' : State), s.buf = s'.buf → s.cfg = s'.cfg →
    exec (.submit chunk) s = .next t → exec (.submit chunk) s' = .next t' →
    t.buf = t'.buf ∧
    ((∃ why, t.result = .refused why ∧ t'.result = .refused why) ∨
      ∃ rs rs' ds, t.result = .ok rs ds ∧ t'.result = .ok rs' ds ∧ rs.map untimed = rs'.map untimed)

/-- 41_framer.md R78, R79; 42_dispatch.md R85, R92: every record of a SUBMIT is DECODE of a whole frame that lies in
the bytes received, with a sample drawn in that SUBMIT. -/
def Obligations.RecordsAreWholeFrames : Prop :=
  ∀ (chunk : Bytes) (s t : State) (rs : List Record) (ds : List Diag), exec (.submit chunk) s = .next t →
    t.result = .ok rs ds → ∀ r ∈ rs, isFrame r.raw = true ∧ r.raw <:+: s.buf ++ chunk ∧
      decodeFrame s.cfg r.raw r.captureTime = some r ∧
      ∃ k, s.draws ≤ k ∧ k < t.draws ∧ r.captureTime = (Config.timeIn s.cfg.tsW k).toNat

/-- 41_framer.md R84 (d), (e), (f): candidates back to back, each with its start marker and its right length: one
record for each that ends in the stop marker, in order, one event for each that does not, and nothing is left. -/
def Obligations.CandidatesInOrder : Prop :=
  ∀ (fs : List Bytes) (s : State), s.buf = [] → (∀ f ∈ fs, isCandidate f = true) →
    chunkFits s fs.flatten = true →
    exec (.submit fs.flatten) s = .next ((s.withDraws (s.draws + fs.countP stopOk)).withResult
      (.ok (streamRecords s.cfg s.draws fs) (streamEvents fs)))

/-- 41_framer.md R83: from an empty buffer such a stream gives the same records, events and final state however it is
split over two SUBMITs. -/
def Obligations.SplitPointInvisible : Prop :=
  ∀ (fs : List Bytes) (k : Nat) (s w : State), s.buf = [] → (∀ f ∈ fs, isCandidate f = true) →
    chunkFits s fs.flatten = true → exec (.submit fs.flatten) s = .next w →
    ∃ u v r₁ d₁ r₂ d₂, exec (.submit (fs.flatten.take k)) s = .next u ∧ u.result = .ok r₁ d₁ ∧
      exec (.submit (fs.flatten.drop k)) u = .next v ∧ v.result = .ok r₂ d₂ ∧
      v.withResult w.result = w ∧ w.result = .ok (r₁ ++ r₂) (d₁ ++ d₂)

/-- 41_framer.md R79, R80: one candidate as an operation of its own, of either start marker (log 3, log 23). -/
def Obligations.FrameEnvelopes : Prop :=
  ∀ (i : Instr) (f : Bytes) (s : State), i = .frameStd f ∨ i = .frameExt f → i.WellFormed →
    (f.drop (f.length - 2) = [0x0D, 0x0A] → ∃ r, decodeFrame s.cfg f (timeSample s.cfg s.draws) = some r ∧
      exec i s = .next (((s.withBuf (s.buf.drop f.length)).withDraws (s.draws + 1)).withResult (.ok [r] []))) ∧
    (f.drop (f.length - 2) ≠ [0x0D, 0x0A] →
      exec i s = .next ((s.withBuf (s.buf.drop f.length)).withResult (.ok [] [.badStopDrop f.length])))

/-- 00_scope.md R2: the two levels meet. Where a complete candidate stands at the head of `BUF`, a SUBMIT of nothing is
that frame's own operation followed by a SUBMIT of nothing. -/
def Obligations.SubmitRunsFrameAtHead : Prop :=
  ∀ (i : Instr) (s u v : State) (r₁ r₂ : List Record) (d₁ d₂ : List Diag), chunkFits s [] = true →
    decode (.candidate s.buf) = .ok i → exec i s = .next u → u.result = .ok r₁ d₁ →
    exec (.submit []) u = .next v → v.result = .ok r₂ d₂ →
    exec (.submit []) s = .next (v.withResult (.ok (r₁ ++ r₂) (d₁ ++ d₂)))

/-- 30_encoding.md R41; 70_reset_and_hazards.md R158: the two start markers are treated identically: a frame of 10
bytes or more with the other marker gives the same record but for `raw`. -/
def Obligations.MarkersTreatedAlike : Prop :=
  ∀ (c : Config) (rest : Bytes) (t : Nat), isFrame (0x78 :: 0x78 :: rest) = true → 8 ≤ rest.length →
    isFrame (0x79 :: 0x79 :: rest) = true ∧ ∃ r, decodeFrame c (0x78 :: 0x78 :: rest) t = some r ∧
      decodeFrame c (0x79 :: 0x79 :: rest) t = some { r with raw := 0x79 :: 0x79 :: rest }

/-! ## The dispatcher -/

/-- 42_dispatch.md R86 to R92: the common fields, of every frame kind. -/
def Obligations.KindCommonFields : Prop :=
  ∀ (i : Instr) (f : Bytes) (s : State), kindFrame i = some f → i.WellFormed → ∃ r, Decodes i s r ∧
    r.raw = f ∧ f[2]? = some r.length ∧ r.length.toNat + 5 = f.length ∧ f[3]? = some r.protocol ∧
    r.captureTime = (Config.timeIn s.cfg.tsW s.draws).toNat ∧ r.captureTime < 2 ^ s.cfg.tsW ∧
    r.serial = (if 6 ≤ f.length then f[f.length - 6]? else none) ∧ f[f.length - 4]? = some r.checksum ∧
    (r.needsResponse = true ↔ r.protocol ∈ [(0x01 : Byte), 0x21, 0x15, 0x16, 0x18, 0x19]) ∧
    r.protocolName = registryName r.protocol

/-- 30_encoding.md R50: the registry's names and `name id`s, over all 256 codes. -/
def Obligations.RegistryNames : Prop :=
  registryName 0x01 = .login ∧ registryName 0x12 = .gpsLbsStatus ∧ registryName 0x13 = .statusInfo ∧
  registryName 0x15 = .stringInfo ∧ registryName 0x16 = .alarmData ∧ registryName 0x1A = .gpsLbsData ∧
  registryName 0xA0 = .gpsLbsStatusA0 ∧
  (∀ c : Byte, registryName c = .unknown ↔ c ∉ [(0x01 : Byte), 0x12, 0x13, 0x15, 0x16, 0x1A, 0xA0]) ∧
  ([.unknown, .login, .gpsLbsStatus, .statusInfo, .stringInfo, .alarmData, .gpsLbsData, .gpsLbsStatusA0].map
    nameId = [0, 1, 2, 3, 4, 5, 6, 7])

/-- 42_dispatch.md R93: a frame handed to the dispatcher decodes to a frame kind whose operation is the DECODE that
SUBMIT performs on it. -/
def Obligations.DispatchIsDecode : Prop :=
  ∀ (f : Bytes) (s : State), isFrame f = true → ∃ i r, decode (.dispatch f) = .ok i ∧ i.WellFormed ∧
    kindFrame i = some f ∧ decodeFrame s.cfg f (timeSample s.cfg s.draws) = some r ∧ Decodes i s r

/-- 42_dispatch.md R94: the generic path stores the payload, possibly empty, and nothing else. -/
def Obligations.GenericPathStoresPayload : Prop :=
  ∀ (i : Instr) (f : Bytes) (s : State), i.WellFormed →
    (i = .stringInfo f ∨ i = .unknownAck18 f ∨ i = .unknownAck19 f ∨ i = .unknownAck21 f ∨ i = .unknown f) →
    ∃ r, Decodes i s r ∧ r.data = some ((f.drop 4).take (f.length - 10)) ∧ onlyCommon { r with data := none }

/-- What the frames of at most 10 bytes report, an inference the spec marks as its own: "What `DECODE` reports for the
frames with `total < 10` and for `total = 10` [derived: from rules R86 to R89]" (42_dispatch.md R96). -/
def Obligations.SmallFrames : Prop :=
  ∀ (c : Config) (t : Nat) (s pp x y z w : Byte), ∃ r₀ r₁ r₂ r₃ r₄ r₅,
    decodeFrame c [s, s, 0, 0x0D, 0x0A] t = some r₀ ∧
      r₀.length = 0 ∧ r₀.protocol = 0x0D ∧ r₀.serial = none ∧ r₀.checksum = s ∧ r₀.data = some [] ∧
    decodeFrame c [s, s, 1, pp, 0x0D, 0x0A] t = some r₁ ∧
      r₁.length = 1 ∧ r₁.protocol = pp ∧ r₁.serial = some s ∧ r₁.checksum = 1 ∧
      (pp = 0x01 → r₁.protocolName = .login ∧ r₁.needsResponse = true ∧ r₁.terminalId = none) ∧
    decodeFrame c [s, s, 2, pp, x, 0x0D, 0x0A] t = some r₂ ∧
      r₂.length = 2 ∧ r₂.protocol = pp ∧ r₂.serial = some s ∧ r₂.checksum = pp ∧
    decodeFrame c [s, s, 3, pp, x, y, 0x0D, 0x0A] t = some r₃ ∧
      r₃.length = 3 ∧ r₃.protocol = pp ∧ r₃.serial = some 3 ∧ r₃.checksum = x ∧
    decodeFrame c [s, s, 4, pp, x, y, z, 0x0D, 0x0A] t = some r₄ ∧
      r₄.length = 4 ∧ r₄.protocol = pp ∧ r₄.serial = some pp ∧ r₄.checksum = y ∧
    decodeFrame c [s, s, 5, pp, x, y, z, w, 0x0D, 0x0A] t = some r₅ ∧
      r₅.length = 5 ∧ r₅.protocol = pp ∧ r₅.serial = some x ∧ r₅.checksum = z ∧
    ∀ r ∈ [r₀, r₁, r₂, r₃, r₄, r₅], (r.data = none ∨ r.data = some []) ∧ onlyCommon { r with data := none }

/-! ## The payload decoders -/

/-- 43_payload_decoders.md R98: the login record. -/
def Obligations.LoginRecord : Prop :=
  ∀ (f p : Bytes) (s : State), (Instr.login f).WellFormed → p = (f.drop 4).take (f.length - 10) →
    ∃ r, Decodes (.login f) s r ∧
      r.terminalId = (if 8 ≤ p.length then some (p.take 8) else none) ∧
      r.deviceType.map BitVec.toNat = (if 10 ≤ p.length then some (nth p 8 * 256 + nth p 9) else none) ∧
      r.timezone = (if 12 ≤ p.length then
        some (if nth p 10 < 128 then ((nth p 10 * 256 + nth p 11 : Nat) : Int)
          else (nth p 10 * 256 + nth p 11 : Nat) - 65536) else none) ∧
      onlyCommon { r with terminalId := none, deviceType := none, timezone := none }

/-- 43_payload_decoders.md R99, with the default `STATUS_BITS` (92_eei_decisions.md D9). -/
def Obligations.StatusRecord : Prop :=
  ∀ (f p : Bytes) (s : State), (Instr.statusInfo f).WellFormed → s.cfg.statusBits = StatusBits.default →
    p = (f.drop 4).take (f.length - 10) → ∃ r, Decodes (.statusInfo f) s r ∧
      (p.length < 1 → onlyCommon r) ∧
      (1 ≤ p.length → ∃ st, r.status = some st ∧
        st.oilElectricityCut = (nth p 0).testBit 0 ∧ st.gpsTracking = (nth p 0).testBit 1 ∧
        st.charging = (nth p 0).testBit 2 ∧ st.accHigh = (nth p 0).testBit 3 ∧
        st.defenceArmed = (nth p 0).testBit 4 ∧ st.lowBattery = (nth p 0).testBit 5 ∧
        st.gsmSignalLevel.toNat = nth p 0 / 64) ∧
      r.voltageLevel = p[1]? ∧ r.gsmSignalStrength = p[2]? ∧ r.alarmCode = p[3]? ∧ r.languageCode = p[4]? ∧
      onlyCommon { r with status := none, voltageLevel := none, gsmSignalStrength := none, alarmCode := none,
                          languageCode := none }

/-- 43_payload_decoders.md R100: the eight alarm flags, and the standard block behind them. -/
def Obligations.AlarmRecord : Prop :=
  ∀ (f p : Bytes) (s : State), (Instr.alarmData f).WellFormed → p = (f.drop 4).take (f.length - 10) →
    ∃ r, Decodes (.alarmData f) s r ∧
      (p.length < 1 → onlyCommon r) ∧
      (1 ≤ p.length →
        (∃ al, r.alarmType = some al ∧
          al.emergency = (nth p 0).testBit 0 ∧ al.overspeed = (nth p 0).testBit 1 ∧
          al.lowPower = (nth p 0).testBit 2 ∧ al.shock = (nth p 0).testBit 3 ∧
          al.intoArea = (nth p 0).testBit 4 ∧ al.outArea = (nth p 0).testBit 5 ∧
          al.longNoOperation = (nth p 0).testBit 6 ∧ al.distance = (nth p 0).testBit 7) ∧
        { r with alarmType := none } =
          pdGpsLbs s.cfg (p.drop 1) (commonFields f (timeSample s.cfg s.draws)))

/-- 43_payload_decoders.md R101: below 12 bytes the standard decoder assigns nothing at all. -/
def Obligations.ShortGpsBlock : Prop :=
  ∀ (i : Instr) (g : Bytes) (s : State), i.WellFormed → gpsBlock i = some g → g.length < 12 →
    ∃ r, Decodes i s r ∧ onlyCommon { r with alarmType := none }

/-- 43_payload_decoders.md R102, on both GPS variants: `gpsTime` is present iff all six bytes are in range. -/
def Obligations.FixTimeRanges : Prop :=
  ∀ (i : Instr) (g : Bytes) (s : State), i.WellFormed →
    ((gpsBlock i = some g ∧ 12 ≤ g.length) ∨
      (∃ f, i = .gpsLbsStatusA0 f ∧ g = payloadOf f ∧ 6 ≤ g.length)) →
    ∃ r, Decodes i s r ∧ r.gpsTime =
      if nth g 0 ≤ 50 ∧ 1 ≤ nth g 1 ∧ nth g 1 ≤ 12 ∧ 1 ≤ nth g 2 ∧ nth g 2 ≤ 31 ∧ nth g 3 ≤ 23 ∧
          nth g 4 ≤ 59 ∧ nth g 5 ≤ 59
      then some ⟨2000 + nth g 0, nth g 1, nth g 2, nth g 3, nth g 4, nth g 5⟩ else none

/-- 43_payload_decoders.md R103, R104, R105, R106: satellites and the 28-bit latitude from 12 bytes on; longitude and
speed iff their bytes are there. -/
def Obligations.StandardFixedFields : Prop :=
  ∀ (i : Instr) (g : Bytes) (s : State), i.WellFormed → gpsBlock i = some g → 12 ≤ g.length →
    ∃ r lat, Decodes i s r ∧ r.satellites.map BitVec.toNat = some (nth g 6 / 16) ∧ r.latRaw = some lat ∧
      lat.toNat = (nth g 6 % 16) * 2 ^ 24 + nth g 7 * 2 ^ 16 + nth g 8 * 2 ^ 8 + nth g 9 ∧ lat.toNat < 2 ^ 28 ∧
      r.lonRaw.map BitVec.toNat = (if 14 ≤ g.length then
        some (nth g 10 * 2 ^ 24 + nth g 11 * 2 ^ 16 + nth g 12 * 2 ^ 8 + nth g 13) else none) ∧
      r.speed = (if 15 ≤ g.length then g[14]? else none)

/-- 43_payload_decoders.md R107, R108, R109: the status word of the standard block: course in the low 10 bits, each
flag true when its bit is clear. -/
def Obligations.StatusWordFlags : Prop :=
  ∀ (i : Instr) (g : Bytes) (w : Nat) (s : State), i.WellFormed → gpsBlock i = some g →
    w = nth g 15 * 256 + nth g 16 → ∃ r, Decodes i s r ∧
      (g.length < 17 → r.fix = none ∧ r.latitude = none ∧ r.longitude = none) ∧
      (17 ≤ g.length → ∃ x, r.fix = some x ∧ x.course.toNat = w % 1024 ∧ x.realTime = !w.testBit 13 ∧
        x.positioned = !w.testBit 12 ∧ x.east = !w.testBit 11 ∧ x.north = !w.testBit 10)

/-- 43_payload_decoders.md R113, R114, on every frame kind (R119) and for both values of `HEMI_NEG_WHEN_SET`
(92_eei_decisions.md D10): a signed coordinate is there iff its raw value and the status word are, with the sign its
hemisphere flag gives. -/
def Obligations.CoordinateSigns : Prop :=
  ∀ (i : Instr) (f : Bytes) (s : State), i.WellFormed → kindFrame i = some f → ∃ r, Decodes i s r ∧
    r.latitude = r.fix.bind (fun x => r.latRaw.map fun v =>
      if x.north = s.cfg.hemiNegWhenSet then (v.toNat : Int) else -v.toNat) ∧
    r.longitude = r.fix.bind (fun x => r.lonRaw.map fun v =>
      if x.east = s.cfg.hemiNegWhenSet then (v.toNat : Int) else -v.toNat)

/-- 43_payload_decoders.md R110, R111: the cell block iff 9 bytes or more remain behind the status word, and the bytes
left behind the last field read. -/
def Obligations.CellBlockAndLeftOver : Prop :=
  ∀ (i : Instr) (g : Bytes) (off : Nat) (s : State), i.WellFormed → gpsBlock i = some g → 12 ≤ g.length →
    off = (if g.length < 14 then 10 else if g.length < 15 then 14 else if g.length < 17 then 15
      else if g.length < 26 then 17 else 25) →
    ∃ r, Decodes i s r ∧ r.additionalData = (if off < g.length then some (g.drop off) else none) ∧
      (g.length < 26 → r.cell = none) ∧
      (26 ≤ g.length → ∃ x, r.cell = some x ∧ x.mcc.toNat = nth g 17 * 256 + nth g 18 ∧ some x.mnc = g[19]? ∧
        x.lac.toNat = nth g 20 * 256 + nth g 21 ∧
        x.cellId.toNat = nth g 22 * 65536 + nth g 23 * 256 + nth g 24)

/-- 43_payload_decoders.md R117, R118: the coordinates of the extended variant, each accepted on its own. -/
def Obligations.ExtendedCoordinates : Prop :=
  ∀ (f p : Bytes) (la lo : Nat) (s : State), (Instr.gpsLbsStatusA0 f).WellFormed → p = payloadOf f →
    la = nth p 7 * 2 ^ 24 + nth p 8 * 2 ^ 16 + nth p 9 * 2 ^ 8 + nth p 10 →
    lo = nth p 11 * 2 ^ 24 + nth p 12 * 2 ^ 16 + nth p 13 * 2 ^ 8 + nth p 14 →
    ∃ r, Decodes (.gpsLbsStatusA0 f) s r ∧
      r.latRaw.map BitVec.toNat = (if 11 ≤ p.length ∧ 0 < la ∧ la < 0xFFFFFFFF then some la else none) ∧
      r.lonRaw.map BitVec.toNat = (if 15 ≤ p.length ∧ 0 < lo ∧ lo < 0xFFFFFFFF then some lo else none)

/-- 43_payload_decoders.md R115, R116, R119: the other gates of the extended variant; no satellites, no additional
data; the byte at offset 6 has no influence beyond `raw`. -/
def Obligations.ExtendedSpeedAndStatus : Prop :=
  ∀ (f p : Bytes) (w : Nat) (s : State), (Instr.gpsLbsStatusA0 f).WellFormed → p = payloadOf f →
    w = nth p 16 * 256 + nth p 17 → ∃ r, Decodes (.gpsLbsStatusA0 f) s r ∧
      r.satellites = none ∧ r.additionalData = none ∧ r.data = none ∧
      (p.length < 6 → onlyCommon r) ∧
      r.speed = (if 16 ≤ p.length then p[15]? else none) ∧
      (p.length < 18 → r.fix = none ∧ r.latitude = none ∧ r.longitude = none ∧ r.cell = none) ∧
      (18 ≤ p.length → ∃ x, r.fix = some x ∧ x.course.toNat = w % 1024 ∧ x.realTime = !w.testBit 13 ∧
        x.positioned = !w.testBit 12 ∧ x.east = !w.testBit 11 ∧ x.north = !w.testBit 10) ∧
      ∀ v t, pdGpsLbsA0 s.cfg (p.set 6 v) (commonFields f t) = pdGpsLbsA0 s.cfg p (commonFields f t)

/-- 43_payload_decoders.md R120: the cell block of the extended variant starts at the first offset from 18 on whose
two bytes are in 100..999 and behind which the whole block fits; with no such offset there is none. -/
def Obligations.ExtendedCellScan : Prop :=
  ∀ (f p : Bytes) (s : State), (Instr.gpsLbsStatusA0 f).WellFormed → p = payloadOf f →
    ∃ r, Decodes (.gpsLbsStatusA0 f) s r ∧
      let hit := fun i => 18 ≤ i ∧ i + 8 ≤ p.length ∧ 100 ≤ nth p i * 256 + nth p (i + 1) ∧
        nth p i * 256 + nth p (i + 1) ≤ 999
      (∀ i, hit i → (∀ j, j < i → ¬ hit j) → ∃ x, r.cell = some x ∧
        x.mcc.toNat = nth p i * 256 + nth p (i + 1) ∧ some x.mnc = p[i + 2]? ∧
        x.lac.toNat = nth p (i + 3) * 256 + nth p (i + 4) ∧
        x.cellId.toNat = nth p (i + 5) * 65536 + nth p (i + 6) * 256 + nth p (i + 7)) ∧
      ((∀ i, ¬ hit i) → r.cell = none)

/-- 43_payload_decoders.md R124: the nibble-packed coordinate pair survives the round trip exactly. -/
def Obligations.CoordinateRoundTrip : Prop :=
  ∀ (i : Instr) (g : Bytes) (k a b : Nat) (s : State), i.WellFormed → gpsBlock i = some g → 14 ≤ g.length →
    k < 16 → a < 2 ^ 28 → b < 2 ^ 32 →
    (g.drop 6).take 8 = ([k * 16 + a / 2 ^ 24, a / 2 ^ 16 % 256, a / 2 ^ 8 % 256, a % 256,
      b / 2 ^ 24, b / 2 ^ 16 % 256, b / 2 ^ 8 % 256, b % 256].map (BitVec.ofNat 8)) →
    ∃ r, Decodes i s r ∧ r.satellites.map BitVec.toNat = some k ∧ r.latRaw.map BitVec.toNat = some a ∧
      r.lonRaw.map BitVec.toNat = some b

/-- The presence invariants, of every record any SUBMIT reports, those of the status payload's trailing bytes with the
order R99 gives them; an inference the spec marks as its own: "Presence invariants of a record [derived: from rules R98
to R121], which a model can state as theorems" (43_payload_decoders.md R123). -/
def Obligations.PresenceInvariants : Prop :=
  ∀ (chunk : Bytes) (s t : State) (rs : List Record) (ds : List Diag), exec (.submit chunk) s = .next t →
    t.result = .ok rs ds → ∀ r ∈ rs, Present r ∧ (s.cfg.statusBits = StatusBits.default → TrailingPresent r)

/-- 00_scope.md R11; 92_eei_decisions.md D5: the renderings lose nothing. The strings of `hexU` have two characters a
byte and differ where the bytes do, and the login example of TPS §8 (95_test_vectors.md S1) has the string given. -/
def Obligations.RenderingsLoseNothing : Prop :=
  (∀ b : Bytes, (hexU b).length = 2 * b.length) ∧ Function.Injective hexU ∧ hexU [] = "" ∧
  hexU [0x01, 0x02, 0x03, 0x04, 0x05, 0x06, 0x07, 0x08] = "0102030405060708" ∧ hexU [0x1F, 0xEA] = "1FEA" ∧
  Function.Injective nameStr ∧ ∀ r : Int, deg r * 1800000 = r

/-! ## Encoding -/

/-- 30_encoding.md R40 to R50: every well-formed instruction survives encoding and decoding, every operand at every
value. -/
def Obligations.DecodeOfEncode : Prop :=
  ∀ i : Instr, i.WellFormed → decode (encode i) = .ok i

/-- The other direction: what the decoder accepts is well formed, and its encoding is what was read; a candidate takes
`L + 5` bytes and leaves the rest (30_encoding.md R42, R51). That every other code is its instruction's encoding rests
on the model's operand bytes (log 2) and places (log 3). -/
def Obligations.EncodeOfDecode : Prop :=
  ∀ (c : Code) (i : Instr), decode c = .ok i → i.WellFormed ∧
    match c with
    | .candidate b => ∃ f rest, encode i = .candidate f ∧ b = f ++ rest ∧ f.length = nth b 2 + 5
    | _ => encode i = c

/-- Words written out from the spec's codes and bytes (30_encoding.md R48, R40, R47, and the rows of
spec/opcode_table.json; vectors AK-1, DS-2, ST-1 of 95_test_vectors.md). The operand bytes of the commands, BUILD_ACK's
serial high, serial low, code among them, are the model's choice (log 2), and so are the places of a candidate, a
dispatched frame and an acknowledgment (log 3). -/
def Obligations.WordsOfTheSpec : Prop :=
  decode (.command 0b000 []) = .ok .reset ∧ decode (.command 0b001 [0xAA]) = .ok (.submit [0xAA]) ∧
  decode (.command 0b010 [0x12, 0x34, 0x13]) = .ok (.buildAck 0x1234 0x13) ∧
  decode (.command 0b011 []) = .ok (.crc16 []) ∧ decode (.command 0b100 [0x05]) = .ok (.crcFirst 0x05) ∧
  decode (.command 0b101 [0x01]) = .ok (.crcNext 0x01) ∧
  decode (.candidate [0x79, 0x79, 0x01, 0x01, 0x0D, 0x0A, 0xFF]) =
    .ok (.frameExt [0x79, 0x79, 0x01, 0x01, 0x0D, 0x0A]) ∧
  decode (.dispatch [0x78, 0x78, 0x05, 0x13, 0x00, 0x09, 0x65, 0xB9, 0x0D, 0x0A]) =
    .ok (.statusInfo [0x78, 0x78, 0x05, 0x13, 0x00, 0x09, 0x65, 0xB9, 0x0D, 0x0A]) ∧
  decode (.ackOut [0x78, 0x78, 0x05, 0x01, 0x00, 0x01, 0xD9, 0xDC, 0x0D, 0x0A]) = .ok (.ackFrame 0x0001 0x01) ∧
  decode (.ackOut [0x78, 0x78, 0x05, 0x01, 0x00, 0x01, 0xD9, 0xDD, 0x0D, 0x0A]) = .error .notAnAck
end

