-- ==== Sys2Proof/Laws/State.lean ====
section
/-!
SUPPORT. One lemma per field per update of State, so that no proof unfolds a record update; and the values of
State.reset.
-/

namespace Sys2Proof.Machine

@[simp] theorem State.withBuf_cfg (s : State) (v : Bytes) : (s.withBuf v).cfg = s.cfg := rfl
@[simp] theorem State.withBuf_buf (s : State) (v : Bytes) : (s.withBuf v).buf = v := rfl
@[simp] theorem State.withBuf_crcr (s : State) (v : Bytes) : (s.withBuf v).crcr = s.crcr := rfl
@[simp] theorem State.withBuf_crcOpen (s : State) (v : Bytes) : (s.withBuf v).crcOpen = s.crcOpen := rfl
@[simp] theorem State.withBuf_draws (s : State) (v : Bytes) : (s.withBuf v).draws = s.draws := rfl
@[simp] theorem State.withBuf_result (s : State) (v : Bytes) : (s.withBuf v).result = s.result := rfl
@[simp] theorem State.withBuf_port (s : State) (v : Bytes) : (s.withBuf v).port = s.port := rfl

@[simp] theorem State.withCrcr_cfg (s : State) (v : BitVec 16) : (s.withCrcr v).cfg = s.cfg := rfl
@[simp] theorem State.withCrcr_buf (s : State) (v : BitVec 16) : (s.withCrcr v).buf = s.buf := rfl
@[simp] theorem State.withCrcr_crcr (s : State) (v : BitVec 16) : (s.withCrcr v).crcr = v := rfl
@[simp] theorem State.withCrcr_crcOpen (s : State) (v : BitVec 16) : (s.withCrcr v).crcOpen = s.crcOpen := rfl
@[simp] theorem State.withCrcr_draws (s : State) (v : BitVec 16) : (s.withCrcr v).draws = s.draws := rfl
@[simp] theorem State.withCrcr_result (s : State) (v : BitVec 16) : (s.withCrcr v).result = s.result := rfl
@[simp] theorem State.withCrcr_port (s : State) (v : BitVec 16) : (s.withCrcr v).port = s.port := rfl

@[simp] theorem State.withCrcOpen_cfg (s : State) (v : Bool) : (s.withCrcOpen v).cfg = s.cfg := rfl
@[simp] theorem State.withCrcOpen_buf (s : State) (v : Bool) : (s.withCrcOpen v).buf = s.buf := rfl
@[simp] theorem State.withCrcOpen_crcr (s : State) (v : Bool) : (s.withCrcOpen v).crcr = s.crcr := rfl
@[simp] theorem State.withCrcOpen_crcOpen (s : State) (v : Bool) : (s.withCrcOpen v).crcOpen = v := rfl
@[simp] theorem State.withCrcOpen_draws (s : State) (v : Bool) : (s.withCrcOpen v).draws = s.draws := rfl
@[simp] theorem State.withCrcOpen_result (s : State) (v : Bool) : (s.withCrcOpen v).result = s.result := rfl
@[simp] theorem State.withCrcOpen_port (s : State) (v : Bool) : (s.withCrcOpen v).port = s.port := rfl

@[simp] theorem State.withDraws_cfg (s : State) (v : Nat) : (s.withDraws v).cfg = s.cfg := rfl
@[simp] theorem State.withDraws_buf (s : State) (v : Nat) : (s.withDraws v).buf = s.buf := rfl
@[simp] theorem State.withDraws_crcr (s : State) (v : Nat) : (s.withDraws v).crcr = s.crcr := rfl
@[simp] theorem State.withDraws_crcOpen (s : State) (v : Nat) : (s.withDraws v).crcOpen = s.crcOpen := rfl
@[simp] theorem State.withDraws_draws (s : State) (v : Nat) : (s.withDraws v).draws = v := rfl
@[simp] theorem State.withDraws_result (s : State) (v : Nat) : (s.withDraws v).result = s.result := rfl
@[simp] theorem State.withDraws_port (s : State) (v : Nat) : (s.withDraws v).port = s.port := rfl

@[simp] theorem State.withResult_cfg (s : State) (v : Result) : (s.withResult v).cfg = s.cfg := rfl
@[simp] theorem State.withResult_buf (s : State) (v : Result) : (s.withResult v).buf = s.buf := rfl
@[simp] theorem State.withResult_crcr (s : State) (v : Result) : (s.withResult v).crcr = s.crcr := rfl
@[simp] theorem State.withResult_crcOpen (s : State) (v : Result) : (s.withResult v).crcOpen = s.crcOpen := rfl
@[simp] theorem State.withResult_draws (s : State) (v : Result) : (s.withResult v).draws = s.draws := rfl
@[simp] theorem State.withResult_result (s : State) (v : Result) : (s.withResult v).result = v := rfl
@[simp] theorem State.withResult_port (s : State) (v : Result) : (s.withResult v).port = s.port := rfl

@[simp] theorem State.withPort_cfg (s : State) (v : List Request) : (s.withPort v).cfg = s.cfg := rfl
@[simp] theorem State.withPort_buf (s : State) (v : List Request) : (s.withPort v).buf = s.buf := rfl
@[simp] theorem State.withPort_crcr (s : State) (v : List Request) : (s.withPort v).crcr = s.crcr := rfl
@[simp] theorem State.withPort_crcOpen (s : State) (v : List Request) : (s.withPort v).crcOpen = s.crcOpen := rfl
@[simp] theorem State.withPort_draws (s : State) (v : List Request) : (s.withPort v).draws = s.draws := rfl
@[simp] theorem State.withPort_result (s : State) (v : List Request) : (s.withPort v).result = s.result := rfl
@[simp] theorem State.withPort_port (s : State) (v : List Request) : (s.withPort v).port = v := rfl

@[simp] theorem State.withBuf_withBuf (s : State) (v w : Bytes) : (s.withBuf v).withBuf w = s.withBuf w := rfl
@[simp] theorem State.withBuf_self (s : State) : s.withBuf s.buf = s := rfl
@[simp] theorem State.withCrcr_withCrcr (s : State) (v w : BitVec 16) : (s.withCrcr v).withCrcr w = s.withCrcr w := rfl
@[simp] theorem State.withCrcr_self (s : State) : s.withCrcr s.crcr = s := rfl
@[simp] theorem State.withCrcOpen_withCrcOpen (s : State) (v w : Bool) : (s.withCrcOpen v).withCrcOpen w = s.withCrcOpen w := rfl
@[simp] theorem State.withCrcOpen_self (s : State) : s.withCrcOpen s.crcOpen = s := rfl
@[simp] theorem State.withDraws_withDraws (s : State) (v w : Nat) : (s.withDraws v).withDraws w = s.withDraws w := rfl
@[simp] theorem State.withDraws_self (s : State) : s.withDraws s.draws = s := rfl
@[simp] theorem State.withResult_withResult (s : State) (v w : Result) : (s.withResult v).withResult w = s.withResult w := rfl
@[simp] theorem State.withResult_self (s : State) : s.withResult s.result = s := rfl
@[simp] theorem State.withPort_withPort (s : State) (v w : List Request) : (s.withPort v).withPort w = s.withPort w := rfl
@[simp] theorem State.withPort_self (s : State) : s.withPort s.port = s := rfl

/-- Two states with equal fields are equal. -/
theorem State.eq_of_fields {s t : State} (hcfg : s.cfg = t.cfg) (hbuf : s.buf = t.buf) (hcrcr : s.crcr = t.crcr)
    (hopen : s.crcOpen = t.crcOpen) (hdraws : s.draws = t.draws) (hresult : s.result = t.result)
    (hport : s.port = t.port) : s = t := by
  cases s; cases t; simp_all

@[simp] theorem State.reset_cfg : State.reset.cfg = Config.default := rfl
@[simp] theorem State.reset_buf : State.reset.buf = [] := rfl
@[simp] theorem State.reset_crcr : State.reset.crcr = 0 := rfl
@[simp] theorem State.reset_crcOpen : State.reset.crcOpen = false := rfl
@[simp] theorem State.reset_draws : State.reset.draws = 0 := rfl
@[simp] theorem State.reset_result : State.reset.result = .noResult := rfl
@[simp] theorem State.reset_port : State.reset.port = [] := rfl

end Sys2Proof.Machine
end

