-- ==== Sys2Proof/Laws/Ops.lean ====
section
/-!
SUPPORT. What each named operation can do: the buffer's reads and writes and its form (20_memory.md R25 to R28;
10_state.md R14), and the two ways a command ends (00_scope.md R10).
-/

namespace Sys2Proof.Machine

theorem within_mono {bound : Option Nat} {m n : Nat} (h : within bound n = true) (hmn : m ≤ n) :
    within bound m = true := by
  cases bound with
  | none => rfl
  | some k => simp only [within, decide_eq_true_eq] at *; omega

/-- The empty buffer has the form, whatever the capacity. -/
theorem Memory.wf_nil (c : Config) : Memory.wf c [] = true := by
  unfold Memory.wf within; cases c.bufCap <;> simp

/-- `drop_prefix` keeps the buffer's form. -/
theorem Memory.wf_dropPrefix {c : Config} {b : Bytes} (h : Memory.wf c b = true) (k : Nat) :
    Memory.wf c (Memory.dropPrefix b k) = true :=
  within_mono h (by simp [Memory.dropPrefix])

/-- `append` keeps the buffer's form when the sum of the lengths is within the capacity. -/
theorem Memory.wf_append {c : Config} {b s : Bytes} (h : within c.bufCap (b.length + s.length) = true) :
    Memory.wf c (Memory.append b s) = true := by
  simpa [Memory.wf, Memory.append] using h

/-- State.reset's buffer has the form. -/
theorem Memory.wf_reset : Memory.wf State.reset.cfg State.reset.buf = true := Memory.wf_nil _

/-- A byte of the buffer after `drop_prefix` is the byte that stood `k` further on (20_memory.md R25 a). -/
theorem Memory.byte_dropPrefix (b : Bytes) (k j : Nat) :
    Memory.byte (Memory.dropPrefix b k) j = Memory.byte b (k + j) := by
  simp [Memory.byte, Memory.dropPrefix]

/-- Appending leaves every byte of the buffer where it was (20_memory.md R28). -/
theorem Memory.byte_append {b : Bytes} (s : Bytes) {j : Nat} (h : j < b.length) :
    Memory.byte (Memory.append b s) j = Memory.byte b j := by
  simp [Memory.byte, Memory.append, List.getElem?_append_left h]

/-- `MemRead` is defined exactly inside the buffer, and then gives `n` bytes (20_memory.md R27). -/
theorem Memory.read_eq_some {b r : Bytes} {addr n : Nat} :
    Memory.read b addr n = some r ↔ addr + n ≤ b.length ∧ r = slice b addr (addr + n) := by
  unfold Memory.read
  split <;> simp_all [eq_comm]

/-- A slice inside the sequence has the length its bounds say. -/
theorem slice_length {b : Bytes} {a z : Nat} (h : z ≤ b.length) : (slice b a z).length = z - a := by
  simp only [slice, List.length_take, List.length_drop]; omega

/-- A guarded read is the byte at that offset. -/
theorem byteAt_of_lt {b : Bytes} {o : Nat} (h : o < b.length) : b[o]? = some (byteAt b o) := by
  simp [byteAt, List.getD, List.getElem?_eq_getElem h]

theorem byteAt_eq_of_getElem? {b : Bytes} {o : Nat} {v : Byte} (h : b[o]? = some v) : byteAt b o = v := by
  simp [byteAt, List.getD, h]

/-- The cells' addresses rise strictly: the (address, byte) form of a buffer is canonical. -/
theorem Memory.cells_rising (b : Bytes) : ((Memory.cells b).map Prod.fst).Pairwise (· < ·) := by
  have h : (Memory.cells b).map Prod.fst = List.range b.length := by
    simp [Memory.cells, List.map_map, Function.comp_def, List.zipIdx_map_snd, List.range_eq_range']
  rw [h]
  exact List.pairwise_lt_range

/-- A completed command leaves a next state that differs in its result alone. -/
theorem complete_eq_next {s t : State} {r : Result} : complete s r = .next t ↔ t = s.withResult r := by
  simp [complete, eq_comm]

/-- A refused command changes no state, its result apart (00_scope.md R10). -/
theorem refuse_eq_next {s t : State} {why : RefuseReason} :
    refuse s why = .next t ↔ t = s.withResult (.refused why) := complete_eq_next

/-- A time sample fits its width (00_scope.md R8). -/
theorem timeSample_lt (c : Config) (k : Nat) : timeSample c k < 2 ^ c.tsW := (Config.timeIn c.tsW k).isLt

end Sys2Proof.Machine
end

