-- ==== Sys2Proof/Laws/Payload.lean ====
section
/-!
SUPPORT. What the payload decoders can do to a record: none touches a common field (42_dispatch.md R93), and one
equation per gate.
-/

namespace Sys2Proof.Machine

/-- Two records agree on the common fields (42_dispatch.md R86 to R92). -/
structure SameCommon (r r' : Record) : Prop where
  raw : r'.raw = r.raw
  captureTime : r'.captureTime = r.captureTime
  length : r'.length = r.length
  protocol : r'.protocol = r.protocol
  protocolName : r'.protocolName = r.protocolName
  serial : r'.serial = r.serial
  checksum : r'.checksum = r.checksum
  needsResponse : r'.needsResponse = r.needsResponse

theorem SameCommon.refl (r : Record) : SameCommon r r := ⟨rfl, rfl, rfl, rfl, rfl, rfl, rfl, rfl⟩

theorem SameCommon.trans {a b d : Record} (h : SameCommon a b) (k : SameCommon b d) : SameCommon a d :=
  ⟨k.raw.trans h.raw, k.captureTime.trans h.captureTime, k.length.trans h.length, k.protocol.trans h.protocol,
    k.protocolName.trans h.protocolName, k.serial.trans h.serial, k.checksum.trans h.checksum,
    k.needsResponse.trans h.needsResponse⟩

/-- `trans` with the later half first, so that the middle record is read off the goal. -/
theorem SameCommon.after {a b d : Record} (k : SameCommon b d) (h : SameCommon a b) : SameCommon a d := h.trans k

theorem pdLogin_common (p : Bytes) (r : Record) : SameCommon r (pdLogin p r) := by
  unfold pdLogin; split <;> exact ⟨rfl, rfl, rfl, rfl, rfl, rfl, rfl, rfl⟩

theorem pdStatus_common (l : StatusBits) (p : Bytes) (r : Record) : SameCommon r (pdStatus l p r) := by
  unfold pdStatus; split <;> exact ⟨rfl, rfl, rfl, rfl, rfl, rfl, rfl, rfl⟩

theorem leftOver_common (g : Bytes) (o : Nat) (r : Record) : SameCommon r (leftOver g o r) := by
  unfold leftOver; split <;> exact ⟨rfl, rfl, rfl, rfl, rfl, rfl, rfl, rfl⟩

theorem addStatusWord_common (c : Config) (w : BitVec 16) (r : Record) : SameCommon r (addStatusWord c w r) :=
  ⟨rfl, rfl, rfl, rfl, rfl, rfl, rfl, rfl⟩

theorem gpsCell_common (g : Bytes) (r : Record) : SameCommon r (gpsCell g r) := by
  unfold gpsCell
  split
  · exact .after (leftOver_common ..) ⟨rfl, rfl, rfl, rfl, rfl, rfl, rfl, rfl⟩
  · exact leftOver_common ..

theorem gpsStatusWord_common (c : Config) (g : Bytes) (r : Record) : SameCommon r (gpsStatusWord c g r) := by
  unfold gpsStatusWord
  split
  · exact .trans (addStatusWord_common ..) (gpsCell_common ..)
  · exact leftOver_common ..

theorem gpsSpeed_common (c : Config) (g : Bytes) (r : Record) : SameCommon r (gpsSpeed c g r) := by
  unfold gpsSpeed
  split
  · exact .after (gpsStatusWord_common ..) ⟨rfl, rfl, rfl, rfl, rfl, rfl, rfl, rfl⟩
  · exact leftOver_common ..

theorem gpsLongitude_common (c : Config) (g : Bytes) (r : Record) : SameCommon r (gpsLongitude c g r) := by
  unfold gpsLongitude
  split
  · exact .after (gpsSpeed_common ..) ⟨rfl, rfl, rfl, rfl, rfl, rfl, rfl, rfl⟩
  · exact leftOver_common ..

theorem pdGpsLbs_common (c : Config) (g : Bytes) (r : Record) : SameCommon r (pdGpsLbs c g r) := by
  unfold pdGpsLbs
  split
  · exact .refl r
  · exact .after (gpsLongitude_common ..) ⟨rfl, rfl, rfl, rfl, rfl, rfl, rfl, rfl⟩

theorem pdAlarm_common (c : Config) (p : Bytes) (r : Record) : SameCommon r (pdAlarm c p r) := by
  unfold pdAlarm
  split
  · exact .refl r
  · exact .after (pdGpsLbs_common ..) ⟨rfl, rfl, rfl, rfl, rfl, rfl, rfl, rfl⟩

theorem pdGpsLbsA0_common (c : Config) (p : Bytes) (r : Record) : SameCommon r (pdGpsLbsA0 c p r) := by
  unfold pdGpsLbsA0 a0Latitude a0Longitude a0Speed a0StatusWord
  repeat' split
  all_goals exact ⟨rfl, rfl, rfl, rfl, rfl, rfl, rfl, rfl⟩

theorem pdGeneric_common (p : Bytes) (r : Record) : SameCommon r (pdGeneric p r) :=
  ⟨rfl, rfl, rfl, rfl, rfl, rfl, rfl, rfl⟩

/-- The registry's decode routine touches no common field (42_dispatch.md R93). -/
theorem payloadDecoder_common (c : Config) (code : Byte) (p : Bytes) (r : Record) :
    SameCommon r (payloadDecoder c code p r) := by
  unfold payloadDecoder
  split
  · exact pdLogin_common ..
  split
  · exact pdGpsLbs_common ..
  split
  · exact pdStatus_common ..
  split
  · exact pdAlarm_common ..
  split
  · exact pdGpsLbsA0_common ..
  · exact pdGeneric_common ..

/-- What one decode as an operation of its own answers (42_dispatch.md R85, R92). -/
theorem decodeOp_eq_next {pd : Bytes → Record → Record} {f : Bytes} {s t : State} :
    decodeOp pd f s = .next t ↔
      t = (s.withDraws (s.draws + 1)).withResult
        (.decoded (some (pd (payloadOf f) (commonFields f (timeSample s.cfg s.draws))))) := by
  simp [decodeOp, decodeWith, complete_eq_next]

/-- The scan answers with the block at an offset it tried, which fits and whose MCC is plausible
(43_payload_decoders.md R120). -/
theorem scanCell_some {p : Bytes} {k i : Nat} {b : CellBlock} (h : scanCell p k i = some b) :
    ∃ j, i ≤ j ∧ j + 8 ≤ p.length ∧ plausibleMcc (be16 p j) = true ∧ b = cellAt p j := by
  induction k generalizing i with
  | zero => simp [scanCell] at h
  | succ k ih =>
    unfold scanCell at h
    split at h
    · split at h
      · exact ⟨i, le_rfl, ‹_›, ‹_›, by simpa using h.symm⟩
      · obtain ⟨j, hj, rest⟩ := ih h
        exact ⟨j, by omega, rest⟩
    · simp at h

end Sys2Proof.Machine
end

