-- ==== Sys2Proof/Laws/Framer.lean ====
section
/-!
SUPPORT. What the framer's operations can do: the marker scan, one candidate, one iteration (every case of
41_framer.md R73 to R80), and the loop's induction, packaged once.
-/

namespace Sys2Proof.Machine

/-- The marker the scan finds lies inside the buffer (41_framer.md R74). -/
theorem findMarker_bound {b : Bytes} {i : Nat} (h : findMarker b = some i) : i + 2 ≤ b.length := by
  induction b generalizing i with
  | nil => simp [findMarker] at h
  | cons a b ih =>
    cases b with
    | nil => simp [findMarker] at h
    | cons a' b =>
      unfold findMarker at h
      split at h
      · simp at h; subst h; simp
      · rw [Option.map_eq_some_iff] at h
        obtain ⟨j, hj, rfl⟩ := h
        have := ih hj
        simp only [List.length_cons] at *; omega

/-- Behind the dropped lead-in a start marker stands at offset 0 (41_framer.md R76). -/
theorem findMarker_markerAtHead {b : Bytes} {i : Nat} (h : findMarker b = some i) :
    markerAtHead (b.drop i) = true := by
  induction b generalizing i with
  | nil => simp [findMarker] at h
  | cons a b ih =>
    cases b with
    | nil => simp [findMarker] at h
    | cons a' b =>
      unfold findMarker at h
      split at h
      · simp at h; subst h; simpa [markerAtHead]
      · rw [Option.map_eq_some_iff] at h
        obtain ⟨j, hj, rfl⟩ := h
        simpa using ih hj

/-- With a start marker at offset 0 the scan finds it there. -/
theorem findMarker_of_markerAtHead {b : Bytes} (h : markerAtHead b = true) : findMarker b = some 0 := by
  match b with
  | [] => simp [markerAtHead] at h
  | [_] => simp [markerAtHead] at h
  | a :: a' :: b => simp only [markerAtHead] at h; simp [findMarker, h]

theorem candidateSize_pos (b : Bytes) : 5 ≤ candidateSize b := by simp [candidateSize]

theorem candidateSize_le (b : Bytes) : candidateSize b ≤ 260 := by
  have := (byteAt b 2).isLt
  simp only [candidateSize]; omega

/-- DECODE with the spec's decoders always gives a record (42_dispatch.md R95). -/
theorem decodeFrame_eq (c : Config) (f : Bytes) (t : Nat) :
    decodeFrame c f t = some (payloadDecoder c (protocolOf f) (payloadOf f) (commonFields f t)) := rfl

/-- A candidate with the stop marker: one sample, one record, no event (41_framer.md R79). -/
theorem judgeCandidate_good {c : Config} {f : Bytes} {l : Framing} (h : stopOk f = true) :
    judgeCandidate c f l = { l with
      draws := l.draws + 1
      out := l.out ++ [payloadDecoder c (protocolOf f) (payloadOf f) (commonFields f (timeSample c l.draws))] } := by
  simp [judgeCandidate, decodeCandidateFrame, h, decodeFrame_eq]

/-- A candidate without it: one event, nothing else (41_framer.md R79). -/
theorem judgeCandidate_bad {c : Config} {f : Bytes} {l : Framing} (h : stopOk f = false) :
    judgeCandidate c f l = { l with diag := l.diag ++ [.badStopDrop f.length] } := by
  simp [judgeCandidate, h]

/-- Judging a candidate leaves the buffer. -/
@[simp] theorem judgeCandidate_buf (c : Config) (f : Bytes) (l : Framing) :
    (judgeCandidate c f l).buf = l.buf := by
  cases h : stopOk f
  · rw [judgeCandidate_bad h]
  · rw [judgeCandidate_good h]

/-- A candidate's bytes are consumed in every outcome (41_framer.md R80). -/
@[simp] theorem takeCandidate_buf (c : Config) (f : Bytes) (l : Framing) :
    (takeCandidate c f l).buf = l.buf.drop f.length := by
  simp [takeCandidate, Memory.dropPrefix]

/-- Every case of one iteration of the framing loop (41_framer.md R73 to R80; 60_exceptions.md R140). -/
theorem turn_cases (c : Config) (l : Framing) :
    (l.buf.length < 5 ∧ turn c l = .stop l) ∨
    (5 ≤ l.buf.length ∧ findMarker l.buf = none ∧
      turn c l = .stop { l with buf := [], diag := l.diag ++ [.noMarkerFlush l.buf.length] }) ∨
    (∃ i, 5 ≤ l.buf.length ∧ findMarker l.buf = some i ∧
      ((l.buf.drop i).length < 5 ∨ (l.buf.drop i).length < candidateSize (l.buf.drop i)) ∧
      turn c l = .stop (skipLeadIn i l)) ∨
    (∃ i, 5 ≤ l.buf.length ∧ findMarker l.buf = some i ∧ 5 ≤ (l.buf.drop i).length ∧
      candidateSize (l.buf.drop i) ≤ (l.buf.drop i).length ∧
      turn c l = .again
        (takeCandidate c ((l.buf.drop i).take (candidateSize (l.buf.drop i))) (skipLeadIn i l))) := by
  by_cases h5 : l.buf.length < 5
  · exact .inl ⟨h5, by simp [turn, h5]⟩
  · cases hm : findMarker l.buf with
    | none => exact .inr (.inl ⟨by omega, rfl, by simp [turn, h5, hm]⟩)
    | some i =>
      have hb : (skipLeadIn i l).buf = l.buf.drop i := rfl
      by_cases hh : (l.buf.drop i).length < 5
      · exact .inr (.inr (.inl ⟨i, by omega, rfl, .inl hh, by
          simp only [turn, h5, hm, turnAtMarker, hb, hh, if_true, if_false]⟩))
      · by_cases hc : (l.buf.drop i).length < candidateSize (l.buf.drop i)
        · exact .inr (.inr (.inl ⟨i, by omega, rfl, .inr hc, by
            simp only [turn, h5, hm, turnAtMarker, hb, hh, hc, if_true, if_false]⟩))
        · exact .inr (.inr (.inr ⟨i, by omega, rfl, by omega, by omega, by
            simp only [turn, h5, hm, turnAtMarker, hb, hh, hc, if_false]⟩))

/-- An iteration that goes round again has removed at least 5 bytes (41_framer.md R82 P1). -/
theorem turn_again_shorter {c : Config} {l l' : Framing} (h : turn c l = .again l') :
    l'.buf.length + 5 ≤ l.buf.length := by
  rcases turn_cases c l with ⟨_, e⟩ | ⟨_, _, e⟩ | ⟨i, _, _, _, e⟩ | ⟨i, _, _, h5, hc, e⟩ <;> rw [e] at h
  · cases h
  · cases h
  · cases h
  · cases h
    have hs := candidateSize_pos (l.buf.drop i)
    have hb : (skipLeadIn i l).buf = l.buf.drop i := rfl
    simp only [takeCandidate_buf, hb, List.length_drop, List.length_take] at *
    omega

/-- The loop ends with an iteration that stops, once the bound exceeds the number of bytes (41_framer.md R82 P1). -/
theorem frameLoop_ends (c : Config) (k : Nat) (l : Framing) (hk : l.buf.length < k) :
    ∃ m, turn c m = .stop (frameLoop c k l) := by
  induction k generalizing l with
  | zero => omega
  | succ k ih =>
    unfold frameLoop
    split
    · exact ⟨l, ‹_›⟩
    · rename_i l' h
      exact ih l' (by have := turn_again_shorter h; omega)

/-- The loop's induction: what holds at its top and is kept by every iteration that goes round again holds where
the last iteration begins. -/
theorem frameLoop_induct {c : Config} (P : Framing → Prop)
    (keep : ∀ l l', P l → turn c l = .again l' → P l') (k : Nat) (l : Framing) (h0 : P l)
    (hk : l.buf.length < k) : ∃ m, P m ∧ turn c m = .stop (frameLoop c k l) := by
  induction k generalizing l with
  | zero => omega
  | succ k ih =>
    unfold frameLoop
    split
    · exact ⟨l, h0, ‹_›⟩
    · rename_i l' h
      exact ih l' (keep l l' h0 h) (by have := turn_again_shorter h; omega)

/-- A bound above the number of bytes gives the same loop: the bound is no part of the meaning. -/
theorem frameLoop_bound (c : Config) (k k' : Nat) (l : Framing) (hk : l.buf.length < k) (hk' : l.buf.length < k') :
    frameLoop c k l = frameLoop c k' l := by
  induction k generalizing l k' with
  | zero => omega
  | succ k ih =>
    cases k' with
    | zero => omega
    | succ k' =>
      unfold frameLoop
      split
      · rfl
      · rename_i l' h
        have := turn_again_shorter h
        exact ih k' l' (by omega) (by omega)

/-- One iteration unrolled from the whole loop. -/
theorem runFramer_unroll (c : Config) (l : Framing) :
    runFramer c l = match turn c l with
      | .stop l' => l'
      | .again l' => runFramer c l' := by
  rw [runFramer, frameLoop]
  cases h : turn c l with
  | stop l' => rfl
  | again l' =>
    have := turn_again_shorter h
    exact frameLoop_bound c l.buf.length (l'.buf.length + 1) l' (by omega) (by omega)

/-- What a `SUBMIT` answers: refused and unchanged, or the loop's working values written back (41_framer.md R71,
R81). -/
theorem execSubmit_eq_next {chunk : Bytes} {s t : State} (h : execSubmit chunk s = .next t) :
    (chunkFits s chunk = false ∧ t = s.withResult (.refused .overflow)) ∨
    (chunkFits s chunk = true ∧ ∃ l, l = runFramer s.cfg (Framing.start s (s.buf ++ chunk)) ∧
      t = ((s.withBuf l.buf).withDraws l.draws).withResult (.ok l.out l.diag)) := by
  unfold execSubmit at h
  split at h
  · exact .inr ⟨‹_›, _, rfl, (complete_eq_next.mp h)⟩
  · rename_i hf
    exact .inl ⟨by simpa using hf, refuse_eq_next.mp h⟩

/-- What one candidate as an operation of its own answers (41_framer.md R79, R80). -/
theorem candidateOp_eq_next {f : Bytes} {s t : State} (h : candidateOp f s = .next t) :
    (stopOk f = true ∧ ∃ r, decodeFrame s.cfg f (timeSample s.cfg s.draws) = some r ∧
      t = ((s.withBuf (s.buf.drop f.length)).withDraws (s.draws + 1)).withResult (.ok [r] [])) ∨
    (stopOk f = false ∧
      t = (s.withBuf (s.buf.drop f.length)).withResult (.ok [] [.badStopDrop f.length])) := by
  have ht := complete_eq_next.mp h
  cases hs : stopOk f
  · exact .inr ⟨rfl, by simpa [takeCandidate, judgeCandidate_bad hs, Framing.start, Memory.dropPrefix, State.withDraws, State.withBuf] using ht⟩
  · exact .inl ⟨rfl, _, decodeFrame_eq .., by
      simpa [takeCandidate, judgeCandidate_good hs, Framing.start, Memory.dropPrefix] using ht⟩

end Sys2Proof.Machine
end

