-- ==== Sys2Proof/Laws/PerInstr.lean ====
section
/-!
SUPPORT. Facts about every instruction as syntax, one lemma per constructor.
-/

namespace Sys2Proof.Laws.EncodedSize

/-- The encoded bytes of a well-formed instruction have the size the spec gives its encoding: a command its fixed
operands (10_state.md R22), a frame 5 to 260 bytes (30_encoding.md R42), an acknowledgment 10 (R47). -/
def Statement (i : Instr) : Prop :=
  i.WellFormed → match i with
    | .reset => (encode i).bytes.length = 0
    | .buildAck _ _ => (encode i).bytes.length = 3
    | .crcFirst _ | .crcNext _ => (encode i).bytes.length = 1
    | .submit d | .crc16 d | .reserved110 d | .reserved111 d => (encode i).bytes.length = d.length
    | .ackFrame _ _ => (encode i).bytes.length = 10
    | _ => 5 ≤ (encode i).bytes.length ∧ (encode i).bytes.length ≤ 260

theorem size_of_isCandidate {f : Bytes} (h : Machine.isCandidate f = true) : 5 ≤ f.length ∧ f.length ≤ 260 := by
  simp only [Machine.isCandidate, Bool.and_eq_true, decide_eq_true_eq, beq_iff_eq, Machine.candidateSize] at h
  obtain ⟨⟨h5, -⟩, hl⟩ := h
  have := (Machine.byteAt f 2).isLt
  omega

theorem size_of_frameOfKind {code : Byte} {f : Bytes} (h : frameOfKind code f = true) :
    5 ≤ f.length ∧ f.length ≤ 260 := by
  simp only [frameOfKind, Machine.isFrame, Bool.and_eq_true] at h
  exact size_of_isCandidate h.1.1

theorem reset : Statement .reset := fun _ => rfl
theorem submit (d : Bytes) : Statement (.submit d) := fun _ => rfl
theorem buildAck (s : BitVec 16) (c : Byte) : Statement (.buildAck s c) := fun _ => rfl
theorem crc16 (d : Bytes) : Statement (.crc16 d) := fun _ => rfl
theorem crcFirst (b : Byte) : Statement (.crcFirst b) := fun _ => rfl
theorem crcNext (b : Byte) : Statement (.crcNext b) := fun _ => rfl
theorem reserved110 (d : Bytes) : Statement (.reserved110 d) := fun _ => rfl
theorem reserved111 (d : Bytes) : Statement (.reserved111 d) := fun _ => rfl
theorem frameStd (f : Bytes) : Statement (.frameStd f) := fun h =>
  size_of_isCandidate (by simp only [Instr.WellFormed, Instr.wellFormed, Bool.and_eq_true] at h; exact h.1)
theorem frameExt (f : Bytes) : Statement (.frameExt f) := fun h =>
  size_of_isCandidate (by simp only [Instr.WellFormed, Instr.wellFormed, Bool.and_eq_true] at h; exact h.1)
theorem login (f : Bytes) : Statement (.login f) := fun h => size_of_frameOfKind h
theorem gpsLbsStatus (f : Bytes) : Statement (.gpsLbsStatus f) := fun h => size_of_frameOfKind h
theorem statusInfo (f : Bytes) : Statement (.statusInfo f) := fun h => size_of_frameOfKind h
theorem stringInfo (f : Bytes) : Statement (.stringInfo f) := fun h => size_of_frameOfKind h
theorem alarmData (f : Bytes) : Statement (.alarmData f) := fun h => size_of_frameOfKind h
theorem gpsLbsData (f : Bytes) : Statement (.gpsLbsData f) := fun h => size_of_frameOfKind h
theorem gpsLbsStatusA0 (f : Bytes) : Statement (.gpsLbsStatusA0 f) := fun h => size_of_frameOfKind h
theorem unknownAck18 (f : Bytes) : Statement (.unknownAck18 f) := fun h => size_of_frameOfKind h
theorem unknownAck19 (f : Bytes) : Statement (.unknownAck19 f) := fun h => size_of_frameOfKind h
theorem unknownAck21 (f : Bytes) : Statement (.unknownAck21 f) := fun h => size_of_frameOfKind h
theorem unknown (f : Bytes) : Statement (.unknown f) := fun h =>
  size_of_isCandidate (by
    simp only [Instr.WellFormed, Instr.wellFormed, Machine.isFrame, Bool.and_eq_true] at h; exact h.1.1)
theorem ackFrame (s : BitVec 16) (c : Byte) : Statement (.ackFrame s c) := fun _ => rfl

end Sys2Proof.Laws.EncodedSize
end

