-- ==== Sys2Proof/Tests/Slice0.lean ====
section
/-!
SUPPORT. The model's own tests: ill-formed terms, words written out from the spec's encodings, one-step tests whose
results come from 95_test_vectors.md (each names its vector), and a witness for the hypotheses of every statement.
-/

namespace Sys2Proof.Tests

-- One theorem after another: in parallel their threads' stacks outgrow the check's memory limit.
set_option Elab.async false

open Sys2Proof Sys2Proof.Machine

/-! ## Helpers -/

/-- `ACK1` of 95_test_vectors.md. -/
def ack1 : Bytes := [0x78, 0x78, 0x05, 0x01, 0x00, 0x01, 0xD9, 0xDC, 0x0D, 0x0A]

/-- `ACK1` with its last byte wrong (FX-6). -/
def badAck : Bytes := [0x78, 0x78, 0x05, 0x01, 0x00, 0x01, 0xD9, 0xDC, 0x0D, 0x0B]

/-- The first 17 bytes of the block `G26` of 95_test_vectors.md, section 6. -/
def g17 : Bytes :=
  [0x18, 0x03, 0x0F, 0x0A, 0x14, 0x1E, 0x92, 0xF9, 0x46, 0x90, 0x09, 0x27, 0x7E, 0x60, 0x3C, 0x00, 0x7B]

/-- The block `G26`. -/
def g26 : Bytes := g17 ++ [0x01, 0xAD, 0x01, 0x12, 0x34, 0x00, 0xAB, 0xCD, 0xEE]

/-- The first 18 bytes of the payload `X29` of 95_test_vectors.md, section 6. -/
def x18 : Bytes :=
  [0x18, 0x03, 0x0F, 0x0A, 0x14, 0x1E, 0x00, 0x02, 0xF9, 0x46, 0x90, 0x09, 0x27, 0x7E, 0x60, 0x3C, 0x08, 0x7B]

/-- The payload `X29`. -/
def x29 : Bytes := x18 ++ [0xFF, 0xFF, 0x05, 0x01, 0xAD, 0x01, 0x12, 0x34, 0x00, 0xAB, 0xCD]

/-- A frame around a payload, its serial and checksum bytes zero (30_encoding.md R40). -/
def mk (code : Byte) (p : Bytes) : Bytes :=
  [0x78, 0x78, BitVec.ofNat 8 (p.length + 5), code] ++ p ++ [0, 0, 0, 0, 0x0D, 0x0A]

/-- The state after reset with these bytes in `BUF`. -/
def holding (b : Bytes) : State := State.reset.withBuf b

/-- The state after reset with another `BUF_CAP` and `MAX_CHUNK`. -/
def limited (cap chunk : Option Nat) : State :=
  { State.reset with cfg := { Config.default with bufCap := cap, maxChunk := chunk } }

/-- The next state, if that is the outcome. -/
def after : StepOutcome → Option State
  | .next t => some t
  | _ => none

def bufAfter (o : StepOutcome) : Option Bytes := (after o).map (·.buf)
def resultAfter (o : StepOutcome) : Option Result := (after o).map (·.result)

/-- The record of one DECODE, its capture time blanked. -/
def recordAfter (o : StepOutcome) : Option Record :=
  match after o with
  | some t => match t.result with
    | .decoded r => r.map untimed
    | _ => none
  | none => none

/-- Records (capture times blanked) and events of a SUBMIT. -/
def submitAfter (o : StepOutcome) : Option (List Record × List Diag) :=
  match after o with
  | some t => match t.result with
    | .ok rs ds => some (rs.map untimed, ds)
    | _ => none
  | none => none

/-- `REC_ACK1` of 95_test_vectors.md. -/
def recAck1 : Record where
  raw := ack1
  captureTime := 0
  length := 5
  protocol := 0x01
  protocolName := .login
  serial := some 0x00
  checksum := 0xD9
  needsResponse := true

/-! ## Ill-formed instructions -/

theorem test_wf_candidate_too_short : (Instr.frameStd [0x78, 0x78, 0x00, 0x0D]).wellFormed = false := by decide
theorem test_wf_candidate_mixed_marker : (Instr.frameStd [0x78, 0x79, 0x00, 0x0D, 0x0A]).wellFormed = false := by
  decide
theorem test_wf_candidate_length_byte : (Instr.frameStd [0x78, 0x78, 0x01, 0x0D, 0x0A]).wellFormed = false := by decide
theorem test_wf_candidate_std_marker : (Instr.frameStd [0x79, 0x79, 0x00, 0x0D, 0x0A]).wellFormed = false := by decide
theorem test_wf_candidate_ext_marker : (Instr.frameExt [0x78, 0x78, 0x00, 0x0D, 0x0A]).wellFormed = false := by decide
theorem test_wf_frame_stop_marker : (Instr.login badAck).wellFormed = false := by decide
theorem test_wf_frame_protocol_code : (Instr.statusInfo ack1).wellFormed = false := by decide
theorem test_wf_unknown_not_a_row : (Instr.unknown ack1).wellFormed = false := by decide
theorem test_wf_well_formed : (Instr.login ack1).wellFormed = true ∧ (Instr.frameStd badAck).wellFormed = true ∧
    (Instr.unknown [0x78, 0x78, 0x00, 0x0D, 0x0A]).wellFormed = true := by decide

/-! ## Decoding: a word of every constructor, written out from 30_encoding.md R40, R41, R47, R48, R50 -/

theorem test_decode_reset : decode (.command 0b000 []) = .ok .reset := by decide
theorem test_decode_submit : decode (.command 0b001 [0xAA, 0xBB]) = .ok (.submit [0xAA, 0xBB]) := by decide
theorem test_decode_buildAck : decode (.command 0b010 [0x12, 0x34, 0x13]) = .ok (.buildAck 0x1234 0x13) := by decide
theorem test_decode_crc16 : decode (.command 0b011 [0x05, 0x01]) = .ok (.crc16 [0x05, 0x01]) := by decide
theorem test_decode_crcFirst : decode (.command 0b100 [0x05]) = .ok (.crcFirst 0x05) := by decide
theorem test_decode_crcNext : decode (.command 0b101 [0x01]) = .ok (.crcNext 0x01) := by decide
theorem test_decode_reserved110 : decode (.command 0b110 []) = .ok (.reserved110 []) := by decide
theorem test_decode_reserved111 : decode (.command 0b111 [0x01]) = .ok (.reserved111 [0x01]) := by decide
theorem test_decode_frameStd : decode (.candidate (ack1 ++ [0xFF])) = .ok (.frameStd ack1) := by decide
theorem test_decode_frameExt :
    decode (.candidate [0x79, 0x79, 0x01, 0x01, 0x0D, 0x0A]) = .ok (.frameExt [0x79, 0x79, 0x01, 0x01, 0x0D, 0x0A]) := by
  decide
theorem test_decode_login : decode (.dispatch ack1) = .ok (.login ack1) := by decide
theorem test_decode_gpsLbsStatus :
    decode (.dispatch [0x78, 0x78, 0x05, 0x12, 0x00, 0x01, 0xB3, 0x2D, 0x0D, 0x0A]) =
      .ok (.gpsLbsStatus [0x78, 0x78, 0x05, 0x12, 0x00, 0x01, 0xB3, 0x2D, 0x0D, 0x0A]) := by decide
theorem test_decode_statusInfo :
    decode (.dispatch [0x78, 0x78, 0x05, 0x13, 0x00, 0x01, 0xE9, 0xF1, 0x0D, 0x0A]) =
      .ok (.statusInfo [0x78, 0x78, 0x05, 0x13, 0x00, 0x01, 0xE9, 0xF1, 0x0D, 0x0A]) := by decide
theorem test_decode_stringInfo :
    decode (.dispatch [0x78, 0x78, 0x05, 0x15, 0x00, 0x01, 0x3F, 0x28, 0x0D, 0x0A]) =
      .ok (.stringInfo [0x78, 0x78, 0x05, 0x15, 0x00, 0x01, 0x3F, 0x28, 0x0D, 0x0A]) := by decide
theorem test_decode_alarmData :
    decode (.dispatch [0x78, 0x78, 0x05, 0x16, 0x00, 0x01, 0xD0, 0x4C, 0x0D, 0x0A]) =
      .ok (.alarmData [0x78, 0x78, 0x05, 0x16, 0x00, 0x01, 0xD0, 0x4C, 0x0D, 0x0A]) := by decide
theorem test_decode_gpsLbsData :
    decode (.dispatch [0x78, 0x78, 0x05, 0x1A, 0x00, 0x01, 0x75, 0xEF, 0x0D, 0x0A]) =
      .ok (.gpsLbsData [0x78, 0x78, 0x05, 0x1A, 0x00, 0x01, 0x75, 0xEF, 0x0D, 0x0A]) := by decide
theorem test_decode_gpsLbsStatusA0 :
    decode (.dispatch [0x78, 0x78, 0x05, 0xA0, 0x00, 0x01, 0x8C, 0xD7, 0x0D, 0x0A]) =
      .ok (.gpsLbsStatusA0 [0x78, 0x78, 0x05, 0xA0, 0x00, 0x01, 0x8C, 0xD7, 0x0D, 0x0A]) := by decide
theorem test_decode_unknownAck18 :
    decode (.dispatch [0x78, 0x78, 0x05, 0x18, 0x00, 0x01, 0xC0, 0x57, 0x0D, 0x0A]) =
      .ok (.unknownAck18 [0x78, 0x78, 0x05, 0x18, 0x00, 0x01, 0xC0, 0x57, 0x0D, 0x0A]) := by decide
theorem test_decode_unknownAck19 :
    decode (.dispatch [0x78, 0x78, 0x05, 0x19, 0x00, 0x01, 0x9A, 0x8B, 0x0D, 0x0A]) =
      .ok (.unknownAck19 [0x78, 0x78, 0x05, 0x19, 0x00, 0x01, 0x9A, 0x8B, 0x0D, 0x0A]) := by decide
theorem test_decode_unknownAck21 :
    decode (.dispatch [0x79, 0x79, 0x05, 0x21, 0x00, 0x01, 0xDA, 0xE7, 0x0D, 0x0A]) =
      .ok (.unknownAck21 [0x79, 0x79, 0x05, 0x21, 0x00, 0x01, 0xDA, 0xE7, 0x0D, 0x0A]) := by decide
theorem test_decode_unknown :
    decode (.dispatch [0x78, 0x78, 0x05, 0xFF, 0x00, 0x01, 0x45, 0xF3, 0x0D, 0x0A]) =
      .ok (.unknown [0x78, 0x78, 0x05, 0xFF, 0x00, 0x01, 0x45, 0xF3, 0x0D, 0x0A]) := by decide
theorem test_decode_ackFrame : decode (.ackOut ack1) = .ok (.ackFrame 0x0001 0x01) := by decide +kernel
theorem test_decode_wrong_operand_count : decode (.command 0b101 []) = .error .operandCount ∧
    decode (.command 0b010 [0x00, 0x01]) = .error .operandCount ∧
    decode (.command 0b000 [0x00]) = .error .operandCount := by decide
theorem test_decode_candidate_waits : decode (.candidate [0x78, 0x78, 0x00, 0x0D]) = .error .headerIncomplete ∧
    decode (.candidate [0x78, 0x78, 0x01, 0x0D, 0x0A]) = .error .frameIncomplete ∧
    decode (.candidate [0x78, 0x79, 0x00, 0x0D, 0x0A]) = .error .noStartMarker := by decide
/-- One row of spec/opcode_table.json of each width. -/
theorem test_table_words : decodeTableWord 3 0b110 = some (.reserved110 []) ∧
    decodeTableWord 8 0xA0 = some (.gpsLbsStatusA0 [0x78, 0x78, 0x05, 0xA0, 0, 0, 0, 0, 0x0D, 0x0A]) ∧
    decodeTableWord 16 0x7979 = some (.frameExt [0x79, 0x79, 0, 0, 0]) ∧
    decodeTableWord 80 0x0A0DDCD9010001057878 = some (.ackFrame 0x0001 0x01) := by decide +kernel
theorem test_step_runs_a_placed_word :
    after (step (State.reset.withFetchWord 3 0b111)) = some (State.reset.withResult (.refused .reservedCommand)) := by decide

/-! ## One step of each command -/

/-- FX-19. -/
theorem test_reset : bufAfter (exec .reset (holding [0x78, 0x78, 0x05, 0x01, 0x00, 0x01, 0xD9])) = some [] := by decide
/-- CR-18: CRC_NEXT after RESET has no message to continue. -/
theorem test_reset_closes_message : (after (exec .reset (State.reset.withCrcOpen true))).map (·.crcOpen) = some false := by
  decide
/-- FX-6, in front of it the lead-in of FX-7. -/
theorem test_submit : submitAfter (exec (.submit ([0xAA, 0xBB, 0xCC, 0x78, 0x79, 0x00] ++ badAck ++ ack1)) State.reset) =
    some ([recAck1], [.garbageSkipped 6, .badStopDrop 10]) := by decide +kernel
/-- FX-1, whose last two bytes stay. -/
theorem test_submit_residue : bufAfter (exec (.submit [0x78, 0x78, 0x0D, 0x01, 0x01, 0x02, 0x03, 0x04, 0x05, 0x06, 0x07,
    0x08, 0x00, 0x01, 0x00, 0x00, 0x00, 0x01, 0x0D, 0x0A]) State.reset) = some [0x0D, 0x0A] := by decide +kernel
/-- AK-4. -/
theorem test_buildAck : resultAfter (exec (.buildAck 0x1234 0x13) State.reset) =
    some (.frame [0x78, 0x78, 0x05, 0x13, 0x12, 0x34, 0x29, 0xFE, 0x0D, 0x0A]) := by decide +kernel
/-- CR-5. -/
theorem test_crc16 : resultAfter (exec (.crc16 [0x31, 0x32, 0x33, 0x34, 0x35, 0x36, 0x37, 0x38, 0x39]) State.reset) =
    some (.crc 0x906E) := by decide +kernel
/-- CR-1. -/
theorem test_crc16_empty : resultAfter (exec (.crc16 []) State.reset) = some (.crc 0x0000) := by decide
/-- CR-13, CR-14 beat 1. -/
theorem test_crcFirst : (after (exec (.crcFirst 0x05) State.reset)).map (fun t => (t.crcr, t.result)) =
    some (0x582A, .crc 0xA7D5) := by decide +kernel
/-- CR-14 beat 2. -/
theorem test_crcNext : (after (exec (.crcNext 0x01) ((State.reset.withCrcr 0x582A).withCrcOpen true))).map
    (fun t => (t.crcr, t.result)) = some (0x9F89, .crc 0x6076) := by decide +kernel
/-- CR-18, last line: refused, the register as it was. -/
theorem test_crcNext_without_first : (after (exec (.crcNext 0x01) (State.reset.withCrcr 0x582A))).map
    (fun t => (t.crcr, t.crcOpen, t.result)) = some (0x582A, false, .refused .noCrcMessage) := by decide +kernel
/-- P4 line 8. -/
theorem test_reserved110 : after (exec (.reserved110 []) (State.reset.withCrcr 0x2623)) =
    some ((State.reset.withCrcr 0x2623).withResult (.refused .reservedCommand)) := by decide
theorem test_reserved111 : after (exec (.reserved111 [0x01]) (holding [0x78])) =
    some ((holding [0x78]).withResult (.refused .reservedCommand)) := by decide

/-! ## One candidate, one decode -/

/-- 41_framer.md R79, R80, on `ACK1` (FX-3). -/
theorem test_frameStd : submitAfter (exec (.frameStd ack1) (holding (ack1 ++ [0x79]))) = some ([recAck1], []) ∧
    bufAfter (exec (.frameStd ack1) (holding (ack1 ++ [0x79]))) = some [0x79] := by decide +kernel
/-- The drop of FX-6. -/
theorem test_frameStd_bad_stop : submitAfter (exec (.frameStd badAck) (holding badAck)) = some ([], [.badStopDrop 10]) := by
  decide +kernel
/-- FX-12. -/
theorem test_frameExt : (submitAfter (exec (.frameExt [0x79, 0x79, 0x05, 0x13, 0x12, 0x34, 0xAB, 0xCD, 0x0D, 0x0A])
    State.reset)).map (fun x => x.1.map fun r => (r.protocol, r.serial, r.checksum, r.status)) =
    some [(0x13, some 0x12, 0xAB, none)] := by decide +kernel
/-- LG-1. -/
theorem test_login : (recordAfter (exec (.login [0x78, 0x78, 0x11, 0x01, 0x01, 0x02, 0x03, 0x04, 0x05, 0x06, 0x07, 0x08,
    0x20, 0x01, 0xFE, 0x0C, 0x02, 0x03, 0xED, 0x93, 0x0D, 0x0A]) State.reset)).map
    (fun r => ((r.serial, r.checksum), r.terminalId, r.deviceType, r.timezone)) =
    some ((some 0x02, 0xED), some [0x01, 0x02, 0x03, 0x04, 0x05, 0x06, 0x07, 0x08], some 8193, some (-500)) := by
  decide +kernel
/-- LG-2. -/
theorem test_login_lone_byte : (recordAfter (exec (.login [0x78, 0x78, 0x0E, 0x01, 0x01, 0x02, 0x03, 0x04, 0x05, 0x06,
    0x07, 0x08, 0x20, 0x00, 0x05, 0xDE, 0xF5, 0x0D, 0x0A]) State.reset)).map (fun r => (r.checksum, r.deviceType)) =
    some (0xDE, none) := by decide +kernel
/-- GP-1, the record in full. -/
theorem test_gpsLbsStatus : recordAfter (exec (.gpsLbsStatus ([0x78, 0x78, 0x1F, 0x12] ++ g26 ++
    [0x00, 0x05, 0xC1, 0xD4, 0x0D, 0x0A])) State.reset) = some {
      raw := [0x78, 0x78, 0x1F, 0x12] ++ g26 ++ [0x00, 0x05, 0xC1, 0xD4, 0x0D, 0x0A]
      captureTime := 0, length := 31, protocol := 0x12, protocolName := .gpsLbsStatus, serial := some 0x00
      checksum := 0xC1, needsResponse := false, gpsTime := some ⟨2024, 3, 15, 10, 20, 30⟩, satellites := some 9
      latRaw := some 49890960, lonRaw := some 153583200, speed := some 60
      fix := some ⟨123, true, true, true, true⟩, latitude := some 49890960, longitude := some 153583200
      cell := some ⟨429, 1, 4660, 43981⟩, additionalData := some [0xEE] } := by decide +kernel
/-- GP-8d. -/
theorem test_gpsLbsStatus_no_cell : (recordAfter (exec (.gpsLbsStatus (mk 0x12 (g26.take 25))) State.reset)).map
    (fun r => (r.cell, r.additionalData)) =
    some (none, some [0x01, 0xAD, 0x01, 0x12, 0x34, 0x00, 0xAB, 0xCD]) := by decide +kernel
/-- ST-4. -/
theorem test_statusInfo : (recordAfter (exec (.statusInfo [0x78, 0x78, 0x08, 0x13, 0x2D, 0x04, 0x03, 0x00, 0x09, 0x00,
    0xFD, 0x0D, 0x0A]) State.reset)).map
    (fun r => (r.status, r.voltageLevel, r.gsmSignalStrength, r.alarmCode)) =
    some (some ⟨true, false, true, true, false, true, 0⟩, some 4, some 3, none) := by decide +kernel
/-- ST-8, second case. -/
theorem test_statusInfo_gsm : (recordAfter (exec (.statusInfo (mk 0x13 [0x80])) State.reset)).map (·.status) =
    some (some ⟨false, false, false, false, false, false, 2⟩) := by decide +kernel
/-- DS-16, second frame. -/
theorem test_stringInfo : (recordAfter (exec (.stringInfo [0x78, 0x78, 0x07, 0x15, 0x4F, 0x4B, 0x01, 0x06, 0x8E, 0x3A,
    0x0D, 0x0A]) State.reset)).map (fun r => (r.protocolName, r.needsResponse, r.serial, r.data)) =
    some (.stringInfo, true, some 0x01, some [0x4F, 0x4B]) := by decide +kernel
/-- AL-3. -/
theorem test_alarmData : (recordAfter (exec (.alarmData [0x78, 0x78, 0x06, 0x16, 0x8A, 0x0A, 0x0B, 0x40, 0xE1, 0x0D,
    0x0A]) State.reset)).map (·.alarmType) =
    some (some ⟨false, true, false, true, false, false, false, true⟩) := by decide +kernel
/-- AL-5. -/
theorem test_alarmData_gps : (recordAfter (exec (.alarmData (mk 0x16 (0x01 :: g26.take 12))) State.reset)).map
    (fun r => (r.satellites, r.latRaw, r.lonRaw, r.additionalData)) =
    some (some 9, some 49890960, none, some [0x09, 0x27]) := by decide +kernel
/-- GP-9. -/
theorem test_gpsLbsData : (recordAfter (exec (.gpsLbsData [0x78, 0x78, 0x16, 0x1A, 0x18, 0x03, 0x0F, 0x0A, 0x14, 0x1E,
    0x52, 0xF9, 0x46, 0x90, 0x09, 0x27, 0x7E, 0x60, 0x00, 0x0D, 0x2C, 0x00, 0x06, 0xE4, 0x0F, 0x0D, 0x0A])
    State.reset)).map (fun r => (r.satellites, r.fix, r.latitude, r.longitude)) =
    some (some 5, some ⟨300, true, true, false, false⟩, some (-49890960), some (-153583200)) := by decide +kernel
/-- GX-1. -/
theorem test_gpsLbsStatusA0 : (recordAfter (exec (.gpsLbsStatusA0 (mk 0xA0 x29)) State.reset)).map
    (fun r => ((r.latitude, r.longitude, r.speed), r.fix, r.cell, r.satellites)) =
    some ((some 49890960, some (-153583200), some 60), some ⟨123, true, true, false, true⟩,
      some ⟨429, 1, 4660, 43981⟩, none) := by decide +kernel
/-- GX-15: the first match wins. -/
theorem test_gpsLbsStatusA0_early_match : (recordAfter (exec (.gpsLbsStatusA0 (mk 0xA0 (x18 ++
    [0x00, 0x64, 0xAA, 0xBB, 0xCC, 0xDD, 0xEE, 0xFF, 0x01, 0xAD, 0x01, 0x12, 0x34, 0x00, 0xAB, 0xCD]))) State.reset)).map
    (·.cell) = some (some ⟨100, 170, 48076, 14544639⟩) := by decide +kernel
/-- DS-14. -/
theorem test_unknownAck18 : (recordAfter (exec (.unknownAck18 (mk 0x18 [])) State.reset)).map
    (fun r => (r.protocolName, r.needsResponse, r.data)) = some (.unknown, true, some []) := by decide +kernel
theorem test_unknownAck19 : (recordAfter (exec (.unknownAck19 (mk 0x19 [])) State.reset)).map
    (fun r => (r.protocolName, r.needsResponse, r.data)) = some (.unknown, true, some []) := by decide +kernel
/-- DS-16, first frame. -/
theorem test_unknownAck21 : (recordAfter (exec (.unknownAck21 [0x78, 0x78, 0x07, 0x21, 0xDE, 0xAD, 0x01, 0x05, 0x68,
    0x6C, 0x0D, 0x0A]) State.reset)).map (fun r => (r.protocolName, r.needsResponse, r.serial, r.data)) =
    some (.unknown, true, some 0x01, some [0xDE, 0xAD]) := by decide +kernel
/-- DS-1. -/
theorem test_unknown : (recordAfter (exec (.unknown [0x78, 0x78, 0x00, 0x0D, 0x0A]) State.reset)).map
    (fun r => (r.length, r.protocol, r.serial, r.checksum, r.data)) = some (0, 0x0D, none, 0x78, some []) := by
  decide +kernel
/-- DS-15, code 0x00. -/
theorem test_unknown_zero_code : (recordAfter (exec (.unknown (mk 0x00 [])) State.reset)).map
    (fun r => (r.protocolName, r.needsResponse)) = some (.unknown, false) := by decide +kernel
/-- AK-3. -/
theorem test_ackFrame : resultAfter (exec (.ackFrame 0xFFFF 0x16) State.reset) =
    some (.frame [0x78, 0x78, 0x05, 0x16, 0xFF, 0xFF, 0x31, 0x7D, 0x0D, 0x0A]) := by decide +kernel
/-- DT-2, DT-4: the last year in range and the first out of it. -/
theorem test_gpsTime_years : gpsTimeOf [0x32, 0x02, 0x1F, 0x17, 0x3B, 0x3B] = some ⟨2050, 2, 31, 23, 59, 59⟩ ∧
    gpsTimeOf [0x33, 0x01, 0x01, 0x00, 0x00, 0x00] = none := by decide

/-! ## Witnesses: a concrete case meets the hypotheses of every statement that has some -/

theorem marker_at_head (b : Bytes) (h : markerAtHead b = true) : MarkerAt b 0 := by
  match b with
  | [] | [_] => cases h
  | x :: y :: r =>
    simp only [markerAtHead, isMarker, Bool.and_eq_true, Bool.or_eq_true, beq_iff_eq] at h
    exact ⟨x, h.2, rfl, by simp [h.1]⟩

theorem least_marker_at_head {b : Bytes} (h : markerAtHead b = true) : LeastMarker b 0 :=
  ⟨marker_at_head b h, fun _ hj => absurd hj (Nat.not_lt_zero _)⟩

theorem witness_StepRunsDecodedRequest :
    (holding ack1 |>.withPort [.candidate]).port = [.candidate] ∧
    decode (present .candidate (holding ack1).buf) = .ok (.frameStd ack1) := by decide

/-- Both ways of waiting, at their last size: 4 bytes, and one byte short of `L + 5`. -/
theorem witness_StepWaitsWithoutWork : State.reset.port = [] ∧
    (MarkerAt [0x78, 0x78, 0x00, 0x0D] 0 ∧ ([0x78, 0x78, 0x00, 0x0D] : Bytes).length < 5) ∧
    (MarkerAt (ack1.take 9) 0 ∧ 5 ≤ (ack1.take 9).length ∧ (ack1.take 9).length < nth (ack1.take 9) 2 + 5) :=
  ⟨rfl, ⟨marker_at_head _ rfl, by decide⟩, marker_at_head _ rfl, by decide, by decide⟩

theorem witness_StepKeepsFramedBuffer : ∃ t,
    Inv ((holding (ack1.take 9)).withPort [submitCmd [0x0A]]) ∧
    step ((holding (ack1.take 9)).withPort [submitCmd [0x0A]]) = .next t := ⟨_, ⟨by decide, by decide⟩, rfl⟩

theorem witness_ParametersFixedResultsUnread : ∃ t, exec (.crcNext 0x01) State.reset = .next t := ⟨_, rfl⟩

/-- Each clause: a command, a beat is excluded from the second, RESET keeps `CRCR`. -/
theorem witness_WhoWritesBufferAndCrcr :
    (∃ t, exec (.crc16 ack1) (holding ack1) = .next t ∧ t.buf = ack1) ∧
    (∃ t, exec (.submit []) ((holding ack1).withCrcr 0x582A) = .next t ∧ t.buf = [] ∧ t.crcr = 0x582A) ∧
    ∃ t, exec .reset (State.reset.withCrcr 0x582A) = .next t ∧ t.crcr = 0x582A :=
  ⟨⟨_, rfl, rfl⟩, ⟨_, rfl, by decide +kernel, rfl⟩, _, rfl, rfl⟩

theorem witness_CrcStreamingBeats : (State.reset.withCrcOpen true).crcOpen = true ∧ State.reset.crcOpen = false := by
  decide

theorem witness_CrcResidueAndSeparation : crc16 [0x31, 0x32, 0x33, 0x34, 0x35, 0x36, 0x37, 0x38, 0x39] =
    (0x90 : Byte) ++ (0x6E : Byte) ∧ crc16 [] = (0x00 : Byte) ++ (0x00 : Byte) ∧ (0x00 : Byte) ≠ 0xFF := by
  decide +kernel

theorem witness_BuildAckFrame : crc16 [0x05, 0x01, 0x00, 0x01] = (0xD9 : Byte) ++ (0xDC : Byte) := by decide +kernel

theorem witness_AckFrameOutput : crc16 [0x05, 0x13, 0x12, 0x34] = (0x29 : Byte) ++ (0xFE : Byte) := by decide +kernel

theorem witness_AckLoopsBack : crc16 [0x05, 0x16, 0xFF, 0xFF] = (0x31 : Byte) ++ (0x7D : Byte) ∧ State.reset.buf = [] ∧
    chunkFits State.reset [0x78, 0x78, 0x05, 0x16, 0xFF, 0xFF, 0x31, 0x7D, 0x0D, 0x0A] = true := by decide +kernel

/-- Each kind of `i`, and both of `j`. -/
theorem witness_CrcAndAckCommute (P : Instr → Instr → Prop)
    (hP : ∀ i j, P i j ↔ ((∃ d, i = .crc16 d) ∨ (∃ n c, i = .buildAck n c) ∨
      ((∃ b, i = .crcFirst b ∨ i = .crcNext b) ∧ j ≠ .reset)) ∧ ((∃ chunk, j = .submit chunk) ∨ j = .reset)) :
    P (.crc16 []) .reset ∧ P (.buildAck 0 0) (.submit ack1) ∧ P (.crcFirst 0) (.submit []) ∧
    P (.crcNext 0) (.submit ack1) := by
  simp [hP]

/-- One byte over each bound, the second bound alone, and exact fit on the largest framed buffer. -/
theorem witness_SubmitCapacity :
    ((limited (some 16) none).cfg.bufCap = some 16 ∧
      16 < ((limited (some 16) none).withBuf ack1).buf.length + (ack1.take 7).length) ∧
    ((limited none (some 6)).cfg.maxChunk = some 6 ∧ 6 < (ack1.take 7).length) ∧
    (framed (0x78 :: 0x78 :: 0xFF :: List.replicate 256 0) = true ∧
      (0x78 :: 0x78 :: 0xFF :: List.replicate 256 (0 : Byte)).length + (ack1.take 6).length = 265 ∧
      (limited (some 265) (some 6)).cfg.bufCap = some (259 + (ack1.take 6).length)) := by decide +kernel

theorem witness_SubmitCompletesAndFrames :
    chunkFits { limited (some 16) (some 6) with buf := ack1 } (ack1.take 6) = true := by decide

/-- 4 bytes, over two chunks. -/
theorem witness_SubmitKeepsShortResidue : chunkFits (holding [0x01]) [0x02, 0x03, 0x78] = true ∧
    ((holding [0x01]).buf ++ [0x02, 0x03, 0x78]).length < 5 := by decide

/-- FX-8a with a final lone `78`: 5 bytes, no marker. -/
theorem witness_SubmitFlushesWithoutMarker : chunkFits State.reset [0xAA, 0xBB, 0xCC, 0xDD, 0x78] = true ∧
    5 ≤ (State.reset.buf ++ [0xAA, 0xBB, 0xCC, 0xDD, 0x78]).length ∧
    ∀ i, ¬ MarkerAt (State.reset.buf ++ [0xAA, 0xBB, 0xCC, 0xDD, 0x78]) i := by
  refine ⟨by decide, by decide, ?_⟩
  rintro i ⟨v, hv, h1, h2⟩
  match i with
  | 0 | 1 | 2 | 3 | 4 => simp [State.reset] at h1 h2 <;> rcases hv with rfl | rfl <;> simp at h1
  | _ + 5 => simp [State.reset] at h1

/-- A marker at offset 0 one byte short of `L + 5`, and one at offset 1 with 4 bytes left. -/
theorem witness_SubmitKeepsIncompleteCandidate :
    (chunkFits State.reset (ack1.take 9) = true ∧ 5 ≤ (State.reset.buf ++ ack1.take 9).length ∧
      LeastMarker (State.reset.buf ++ ack1.take 9) 0 ∧ (ack1.take 9).length < nth (ack1.take 9) 2 + 5) ∧
    (LeastMarker [0xAA, 0x78, 0x78, 0x00, 0x0D] 1 ∧ (([0xAA, 0x78, 0x78, 0x00, 0x0D] : Bytes).drop 1).length < 5) := by
  refine ⟨⟨by decide, by decide, least_marker_at_head rfl, by decide⟩, ⟨⟨0x78, .inl rfl, rfl, rfl⟩, ?_⟩, by decide⟩
  rintro j hj ⟨v, hv, h1, -⟩
  obtain rfl : j = 0 := by omega
  rcases hv with rfl | rfl <;> simp at h1

/-- A whole candidate with the right stop marker, one with the wrong one, each followed by what the loop goes on with. -/
theorem witness_SubmitTakesCompleteCandidate :
    (chunkFits State.reset ack1 = true ∧ 5 ≤ (State.reset.buf ++ ack1).length ∧
      LeastMarker (State.reset.buf ++ ack1) 0 ∧ nth ack1 2 + 5 ≤ ack1.length ∧
      ack1.drop (ack1.length - 2) = [0x0D, 0x0A] ∧
      ∃ u, exec (.submit []) ((State.reset.withBuf []).withDraws 1) = .next u ∧ u.result = .ok [] []) ∧
    (LeastMarker (State.reset.buf ++ (badAck ++ ack1)) 0 ∧ badAck.drop (badAck.length - 2) ≠ [0x0D, 0x0A] ∧
      ∃ u rs, exec (.submit []) (State.reset.withBuf ack1) = .next u ∧ u.result = .ok rs []) :=
  ⟨⟨by decide, by decide, least_marker_at_head rfl, by decide, by decide, _, rfl, rfl⟩,
    least_marker_at_head rfl, by decide, _, _, rfl, rfl⟩

/-- Nothing kept, and a partial candidate kept. -/
theorem witness_SubmitPostState :
    (chunkFits State.reset ack1 = true ∧ ∃ t, exec (.submit ack1) State.reset = .next t) ∧
    (∃ t, exec (.submit (ack1.take 9)) State.reset = .next t ∧ t.buf.length = 9) :=
  ⟨⟨by decide, _, rfl⟩, _, rfl, by decide +kernel⟩

theorem witness_EmptyChunkChangesNothing : Inv (holding (ack1.take 9)) ∧ Inv (holding [0x01, 0x02, 0x78, 0x79]) :=
  ⟨⟨by decide, by decide⟩, by decide, by decide⟩

/-- Runs that draw different samples, and a refused pair. -/
theorem witness_SubmitIndependentOfSamples :
    ((holding []).buf = (State.reset.withDraws 7).buf ∧ (holding []).cfg = (State.reset.withDraws 7).cfg ∧
      (∃ t, exec (.submit ack1) (holding []) = .next t) ∧
      ∃ t, exec (.submit ack1) (State.reset.withDraws 7) = .next t) ∧
    ∃ t, exec (.submit ack1) (limited (some 9) none) = .next t ∧ t.result = .refused .overflow :=
  ⟨⟨rfl, rfl, ⟨_, rfl⟩, _, rfl⟩, _, rfl, rfl⟩

theorem witness_RecordsAreWholeFrames : ∃ t rs ds, exec (.submit (ack1 ++ ack1)) State.reset = .next t ∧
    t.result = .ok rs ds ∧ rs.length = 2 := ⟨_, _, _, rfl, rfl, by decide +kernel⟩

theorem witness_CandidatesInOrder : State.reset.buf = [] ∧ (∀ f ∈ [ack1, badAck, ack1], isCandidate f = true) ∧
    chunkFits State.reset [ack1, badAck, ack1].flatten = true := by decide

/-- The split falls inside the second frame. -/
theorem witness_SplitPointInvisible : State.reset.buf = [] ∧ (∀ f ∈ [ack1, ack1], isCandidate f = true) ∧
    chunkFits State.reset [ack1, ack1].flatten = true ∧
    ∃ w, exec (.submit [ack1, ack1].flatten) State.reset = .next w := ⟨rfl, by decide, by decide, _, rfl⟩

/-- Both clauses, both start markers, at the smallest size. -/
theorem witness_FrameEnvelopes :
    (Instr.frameStd [0x78, 0x78, 0x00, 0x0D, 0x0A]).WellFormed ∧ (Instr.frameExt [0x79, 0x79, 0x00, 0x0D, 0x0A]).WellFormed ∧
    (Instr.frameStd badAck).WellFormed ∧ ack1.drop (ack1.length - 2) = [0x0D, 0x0A] ∧
    badAck.drop (badAck.length - 2) ≠ [0x0D, 0x0A] := by decide

theorem witness_SubmitRunsFrameAtHead : ∃ u v r₁ r₂ d₁ d₂, chunkFits (holding (ack1 ++ badAck)) [] = true ∧
    decode (.candidate (holding (ack1 ++ badAck)).buf) = .ok (.frameStd ack1) ∧
    exec (.frameStd ack1) (holding (ack1 ++ badAck)) = .next u ∧ u.result = .ok r₁ d₁ ∧
    exec (.submit []) u = .next v ∧ v.result = .ok r₂ d₂ :=
  ⟨_, _, _, _, _, _, by decide, by decide, rfl, rfl, rfl, rfl⟩

theorem witness_MarkersTreatedAlike : isFrame (0x78 :: 0x78 :: ack1.drop 2) = true ∧ 8 ≤ (ack1.drop 2).length := by
  decide

/-- Every frame kind, and the frame of 5 bytes, whose serial is absent. -/
theorem witness_KindCommonFields :
    ∀ i ∈ [Instr.login ack1, .gpsLbsStatus (mk 0x12 g26), .statusInfo (mk 0x13 []), .stringInfo (mk 0x15 []),
      .alarmData (mk 0x16 [0x01]), .gpsLbsData (mk 0x1A g26), .gpsLbsStatusA0 (mk 0xA0 x29), .unknownAck18 (mk 0x18 []),
      .unknownAck19 (mk 0x19 []), .unknownAck21 (mk 0x21 []), .unknown (mk 0xFF []),
      .unknown [0x78, 0x78, 0x00, 0x0D, 0x0A]], i.WellFormed ∧ (kindFrame i).isSome = true := by decide +kernel

theorem witness_DispatchIsDecode : isFrame ack1 = true ∧ isFrame [0x79, 0x79, 0x00, 0x0D, 0x0A] = true := by decide

theorem witness_GenericPathStoresPayload : (Instr.stringInfo (mk 0x15 [0x4F])).WellFormed ∧
    (Instr.unknownAck18 (mk 0x18 [])).WellFormed ∧ (Instr.unknownAck19 (mk 0x19 [])).WellFormed ∧
    (Instr.unknownAck21 (mk 0x21 [0xDE, 0xAD])).WellFormed ∧ (Instr.unknown (mk 0xFF [])).WellFormed := by
  decide +kernel

/-- Payloads of 7, 8, 10 and 12 bytes, on both sides of each gate. -/
theorem witness_LoginRecord : ∀ n ∈ [7, 8, 9, 10, 11, 12], (Instr.login (mk 0x01 (g17.take n))).WellFormed ∧
    ((mk 0x01 (g17.take n)).drop 4).take ((mk 0x01 (g17.take n)).length - 10) = g17.take n := by decide +kernel

/-- An empty payload and one of 1 byte. -/
theorem witness_StatusRecord : State.reset.cfg.statusBits = StatusBits.default ∧
    ∀ n ∈ [0, 1, 5], (Instr.statusInfo (mk 0x13 (g17.take n))).WellFormed ∧
      ((mk 0x13 (g17.take n)).drop 4).take ((mk 0x13 (g17.take n)).length - 10) = g17.take n := by decide +kernel

/-- An empty payload and one of 1 byte. -/
theorem witness_AlarmRecord : ∀ n ∈ [0, 1, 17], (Instr.alarmData (mk 0x16 (g17.take n))).WellFormed ∧
    ((mk 0x16 (g17.take n)).drop 4).take ((mk 0x16 (g17.take n)).length - 10) = g17.take n := by decide +kernel

/-- 11 bytes, in all three kinds that use the standard block. -/
theorem witness_ShortGpsBlock : (g17.take 11).length < 12 ∧
    (Instr.gpsLbsStatus (mk 0x12 (g17.take 11))).WellFormed ∧
    gpsBlock (.gpsLbsStatus (mk 0x12 (g17.take 11))) = some (g17.take 11) ∧
    (Instr.gpsLbsData (mk 0x1A (g17.take 11))).WellFormed ∧
    gpsBlock (.gpsLbsData (mk 0x1A (g17.take 11))) = some (g17.take 11) ∧
    (Instr.alarmData (mk 0x16 (0x01 :: g17.take 11))).WellFormed ∧
    gpsBlock (.alarmData (mk 0x16 (0x01 :: g17.take 11))) = some (g17.take 11) := by decide +kernel

/-- The smallest block of each variant. -/
theorem witness_FixTimeRanges : (Instr.gpsLbsStatus (mk 0x12 (g17.take 12))).WellFormed ∧
    gpsBlock (.gpsLbsStatus (mk 0x12 (g17.take 12))) = some (g17.take 12) ∧ 12 ≤ (g17.take 12).length ∧
    (Instr.gpsLbsStatusA0 (mk 0xA0 (x18.take 6))).WellFormed ∧ payloadOf (mk 0xA0 (x18.take 6)) = x18.take 6 ∧
    6 ≤ (x18.take 6).length := by decide +kernel

/-- Blocks of 12, 13, 14 and 15 bytes. -/
theorem witness_StandardFixedFields : ∀ n ∈ [12, 13, 14, 15], (Instr.gpsLbsStatus (mk 0x12 (g26.take n))).WellFormed ∧
    gpsBlock (.gpsLbsStatus (mk 0x12 (g26.take n))) = some (g26.take n) ∧ 12 ≤ (g26.take n).length := by decide +kernel

/-- Blocks of 16 and 17 bytes. -/
theorem witness_StatusWordFlags : ∀ n ∈ [16, 17], (Instr.gpsLbsData (mk 0x1A (g26.take n))).WellFormed ∧
    gpsBlock (.gpsLbsData (mk 0x1A (g26.take n))) = some (g26.take n) ∧ (g26.take n).length = n := by decide +kernel

/-- The status word read and not read. -/
theorem witness_CoordinateSigns : ∀ n ∈ [17, 18], (Instr.gpsLbsStatusA0 (mk 0xA0 (x18.take n))).WellFormed ∧
    kindFrame (.gpsLbsStatusA0 (mk 0xA0 (x18.take n))) = some (mk 0xA0 (x18.take n)) := by decide +kernel

/-- Blocks at the ends of every range of `off`: 12, 13, 14, 15, 16, 17, 25 and 26 bytes. -/
theorem witness_CellBlockAndLeftOver : ∀ n ∈ [12, 13, 14, 15, 16, 17, 25, 26],
    (Instr.gpsLbsStatus (mk 0x12 (g26.take n))).WellFormed ∧
    gpsBlock (.gpsLbsStatus (mk 0x12 (g26.take n))) = some (g26.take n) ∧ (g26.take n).length = n := by decide +kernel

/-- Payloads on both sides of each gate. -/
theorem witness_ExtendedCoordinates : ∀ n ∈ [10, 11, 14, 15], (Instr.gpsLbsStatusA0 (mk 0xA0 (x29.take n))).WellFormed ∧
    payloadOf (mk 0xA0 (x29.take n)) = x29.take n := by decide +kernel

/-- Payloads on both sides of each gate. -/
theorem witness_ExtendedSpeedAndStatus : ∀ n ∈ [5, 6, 15, 16, 17, 18],
    (Instr.gpsLbsStatusA0 (mk 0xA0 (x29.take n))).WellFormed ∧ payloadOf (mk 0xA0 (x29.take n)) = x29.take n := by
  decide +kernel

/-- A block that just fits behind the first plausible MCC (GX-1), and the same one byte short (GX-12). -/
theorem witness_ExtendedCellScan : ∀ n ∈ [28, 29], (Instr.gpsLbsStatusA0 (mk 0xA0 (x29.take n))).WellFormed ∧
    payloadOf (mk 0xA0 (x29.take n)) = x29.take n ∧
    ((n = 29 ∧ 21 + 8 ≤ n ∧ nth x29 21 * 256 + nth x29 22 = 429 ∧ ∀ j ∈ [18, 19, 20],
      999 < nth x29 j * 256 + nth x29 (j + 1)) ∨ (n = 28 ∧ n < 21 + 8)) := by decide +kernel

/-- The round trip of 95_test_vectors.md, section 6: `a = 49890960`, `b = 153583200`, `k = 9`. -/
theorem witness_CoordinateRoundTrip : (Instr.gpsLbsStatus (mk 0x12 (g26.take 14))).WellFormed ∧
    gpsBlock (.gpsLbsStatus (mk 0x12 (g26.take 14))) = some (g26.take 14) ∧ 14 ≤ (g26.take 14).length ∧
    ((g26.take 14).drop 6).take 8 = ([9 * 16 + 49890960 / 2 ^ 24, 49890960 / 2 ^ 16 % 256, 49890960 / 2 ^ 8 % 256,
      49890960 % 256, 153583200 / 2 ^ 24, 153583200 / 2 ^ 16 % 256, 153583200 / 2 ^ 8 % 256,
      153583200 % 256].map (BitVec.ofNat 8)) := by decide +kernel

theorem witness_PresenceInvariants : ∃ t rs ds, exec (.submit (mk 0x13 [0x2D, 0x04])) State.reset = .next t ∧
    t.result = .ok rs ds ∧ rs.length = 1 ∧ State.reset.cfg.statusBits = StatusBits.default :=
  ⟨_, _, _, rfl, rfl, by decide +kernel, rfl⟩

theorem witness_DecodeOfEncode : (Instr.frameExt [0x79, 0x79, 0x00, 0x00, 0x00]).WellFormed ∧
    (Instr.unknown [0x78, 0x78, 0x00, 0x0D, 0x0A]).WellFormed := by decide

/-- Each place an operation is met at. -/
theorem witness_EncodeOfDecode : decode (.candidate (ack1 ++ [0x78])) = .ok (.frameStd ack1) ∧
    decode (.command 0b111 [0x01]) = .ok (.reserved111 [0x01]) ∧ decode (.dispatch ack1) = .ok (.login ack1) ∧
    decode (.ackOut ack1) = .ok (.ackFrame 0x0001 0x01) := by decide +kernel

end Sys2Proof.Tests
end

/-!
The statements of 00_scope.md: the rendering functions (R11), and a `SUBMIT` as the operation of the frame at the head
of `BUF` followed by a `SUBMIT` of nothing (R2; 41_framer.md R82).
-/

namespace Sys2Proof.Machine

/-! ## The rendering functions -/

/-- Different nibbles have different digits. -/
theorem hexDigit_inj : ∀ m < 16, ∀ n < 16, hexDigit m = hexDigit n → m = n := by decide

@[simp] theorem hexChars_nil : hexChars [] = [] := rfl

@[simp] theorem hexChars_cons (b : Byte) (bs : Bytes) :
    hexChars (b :: bs) = hexDigit (b.toNat / 16) :: hexDigit (b.toNat % 16) :: hexChars bs := rfl

theorem hexChars_length (b : Bytes) : (hexChars b).length = 2 * b.length := by
  induction b with
  | nil => rfl
  | cons b bs ih => simp only [hexChars_cons, List.length_cons, ih]; omega

/-- A byte is known from its two digits. -/
theorem byte_eq_of_hexDigits_eq {a b : Byte} (hhi : hexDigit (a.toNat / 16) = hexDigit (b.toNat / 16))
    (hlo : hexDigit (a.toNat % 16) = hexDigit (b.toNat % 16)) : a = b := by
  have ha := a.isLt
  have hb := b.isLt
  have hdiv := hexDigit_inj _ (by omega) _ (by omega) hhi
  have hmod := hexDigit_inj _ (by omega) _ (by omega) hlo
  exact BitVec.eq_of_toNat_eq (by omega)

theorem hexChars_injective : Function.Injective hexChars := by
  intro a
  induction a with
  | nil => rintro (_ | ⟨y, ys⟩) h <;> simp_all
  | cons x xs ih =>
    rintro (_ | ⟨y, ys⟩) h
    · simp at h
    · simp only [hexChars_cons, List.cons.injEq] at h
      obtain ⟨hhi, hlo, hrest⟩ := h
      rw [byte_eq_of_hexDigits_eq hhi hlo, ih hrest]

theorem hexU_length (b : Bytes) : (hexU b).length = 2 * b.length := by
  rw [hexU, String.length_ofList, hexChars_length]

theorem hexU_injective : Function.Injective hexU := fun _ _ h =>
  hexChars_injective (String.ofList_injective h)

/-- The eight protocol names (30_encoding.md R50). -/
def protocolNames : List ProtocolName :=
  [.unknown, .login, .gpsLbsStatus, .statusInfo, .stringInfo, .alarmData, .gpsLbsData, .gpsLbsStatusA0]

theorem mem_protocolNames (n : ProtocolName) : n ∈ protocolNames := by
  cases n <;> decide

theorem nameStr_injective : Function.Injective nameStr := by
  have hnodup : (protocolNames.map nameStr).Nodup := by decide
  exact fun m n h => List.inj_on_of_nodup_map hnodup (mem_protocolNames m) (mem_protocolNames n) h

theorem deg_mul_coordScale (r : Int) : deg r * coordScale = r :=
  div_mul_cancel₀ _ (by norm_num [coordScale])

/-- Settles O57: every byte is known from its two digits, every name from its spelling, every raw coordinate from its
degrees. -/
theorem renderingsLoseNothing : Obligations.RenderingsLoseNothing :=
  ⟨hexU_length, hexU_injective, rfl, by decide, by decide, nameStr_injective, deg_mul_coordScale⟩

/-! ## The framing loop behind records and events already noted -/

/-- The working values with records and events of an earlier operation in front of their own. -/
def Framing.behind (rs : List Record) (ds : List Diag) (l : Framing) : Framing :=
  { l with out := rs ++ l.out, diag := ds ++ l.diag }

section Behind

variable (rs : List Record) (ds : List Diag)

@[simp] theorem Framing.behind_buf (l : Framing) : (l.behind rs ds).buf = l.buf := rfl
@[simp] theorem Framing.behind_draws (l : Framing) : (l.behind rs ds).draws = l.draws := rfl
@[simp] theorem Framing.behind_out (l : Framing) : (l.behind rs ds).out = rs ++ l.out := rfl
@[simp] theorem Framing.behind_diag (l : Framing) : (l.behind rs ds).diag = ds ++ l.diag := rfl

/-- The same for the outcome of one iteration. -/
def Turn.behind : Turn → Turn
  | .stop l => .stop (l.behind rs ds)
  | .again l => .again (l.behind rs ds)

theorem takeCandidate_behind (c : Config) (f : Bytes) (l : Framing) :
    takeCandidate c f (l.behind rs ds) = (takeCandidate c f l).behind rs ds := by
  cases h : stopOk f
  · simp [takeCandidate, judgeCandidate_bad h, Framing.behind]
  · simp [takeCandidate, judgeCandidate_good h, Framing.behind]

theorem skipLeadIn_behind (i : Nat) (l : Framing) :
    skipLeadIn i (l.behind rs ds) = (skipLeadIn i l).behind rs ds := by
  unfold skipLeadIn
  split <;> simp [Framing.behind]

theorem turnAtMarker_behind (c : Config) (l : Framing) :
    turnAtMarker c (l.behind rs ds) = (turnAtMarker c l).behind rs ds := by
  simp only [turnAtMarker, Framing.behind_buf, takeCandidate_behind]
  split
  · rfl
  · split <;> rfl

/-- An iteration only appends to what was noted before it. -/
theorem turn_behind (c : Config) (l : Framing) : turn c (l.behind rs ds) = (turn c l).behind rs ds := by
  simp only [turn, Framing.behind_buf, skipLeadIn_behind, turnAtMarker_behind]
  split
  · rfl
  · split
    · simp [Turn.behind, Framing.behind]
    · rfl

/-- And so does the loop. -/
theorem frameLoop_behind (c : Config) (k : Nat) (l : Framing) :
    frameLoop c k (l.behind rs ds) = (frameLoop c k l).behind rs ds := by
  induction k generalizing l with
  | zero => rfl
  | succ k ih =>
    rw [frameLoop, frameLoop, turn_behind]
    cases turn c l with
    | stop l' => rfl
    | again l' => exact ih l'

theorem runFramer_behind (c : Config) (l : Framing) :
    runFramer c (l.behind rs ds) = (runFramer c l).behind rs ds :=
  frameLoop_behind rs ds c _ l

end Behind

/-! ## The frame at the head of `BUF` -/

/-- What decodes at the head of `BUF` is an envelope around the complete candidate that stands there (41_framer.md R76
to R79). -/
theorem decode_candidate_eq_ok {b : Bytes} {i : Instr} (h : decode (.candidate b) = .ok i) :
    markerAtHead b = true ∧ 5 ≤ b.length ∧ candidateSize b ≤ b.length ∧
      (i = .frameStd (b.take (candidateSize b)) ∨ i = .frameExt (b.take (candidateSize b))) := by
  simp only [decode, decodeCandidate] at h
  split at h
  case isFalse => cases h
  case isTrue hmarker =>
    split at h
    case isTrue => cases h
    case isFalse h5 =>
      split at h
      case isTrue => cases h
      case isFalse hsize =>
        refine ⟨hmarker, by omega, by omega, ?_⟩
        split at h
        · exact .inl (Except.ok.inj h).symm
        · exact .inr (Except.ok.inj h).symm

/-- Both envelopes are the operation of their candidate (30_encoding.md R41). -/
theorem exec_envelope {i : Instr} {f : Bytes} (h : i = .frameStd f ∨ i = .frameExt f) (s : State) :
    exec i s = candidateOp f s := by
  obtain rfl | rfl := h <;> rfl

/-- With a complete candidate at the head an iteration takes it and goes round again (41_framer.md R79, R80). -/
theorem turn_of_candidate_at_head (c : Config) {l : Framing} (hmarker : markerAtHead l.buf = true)
    (h5 : 5 ≤ l.buf.length) (hsize : candidateSize l.buf ≤ l.buf.length) :
    turn c l = .again (takeCandidate c (l.buf.take (candidateSize l.buf)) l) := by
  have hskip : skipLeadIn 0 l = l := rfl
  simp [turn, turnAtMarker, findMarker_of_markerAtHead hmarker, hskip, Nat.not_lt.mpr h5, Nat.not_lt.mpr hsize]

/-- A `SUBMIT` of nothing that is not refused is the loop over `BUF` as it stands (41_framer.md R82). -/
theorem execSubmit_nil_of_fits {s : State} (h : chunkFits s [] = true) :
    execSubmit [] s = finishFraming s (runFramer s.cfg (Framing.start s s.buf)) := by
  simp [execSubmit, h, Memory.append]

/-- The loop goes on from working values as it starts from the state they are written back to, behind what they have
noted. -/
theorem runFramer_eq_behind_start {s u : State} {m : Framing} (h : finishFraming s m = .next u) :
    runFramer s.cfg m = (runFramer u.cfg (Framing.start u u.buf)).behind m.out m.diag := by
  obtain rfl := complete_eq_next.mp h
  rw [← runFramer_behind]
  simp [Framing.behind, Framing.start]

/-- Writing the working values back and then submitting nothing, not refused, comes to the same state as going on with
the loop, whose result also keeps the earlier records and events. -/
theorem finishFraming_then_submit_nil {s u v : State} {m : Framing} {r₁ r₂ : List Record} {d₁ d₂ : List Diag}
    (hfinish : finishFraming s m = .next u) (hresult₁ : u.result = .ok r₁ d₁)
    (hsubmit : execSubmit [] u = .next v) (hresult₂ : v.result = .ok r₂ d₂) :
    finishFraming s (runFramer s.cfg m) = .next (v.withResult (.ok (r₁ ++ r₂) (d₁ ++ d₂))) := by
  rw [runFramer_eq_behind_start hfinish]
  obtain rfl := complete_eq_next.mp hfinish
  obtain ⟨-, rfl⟩ | ⟨-, l, hl, rfl⟩ := execSubmit_eq_next hsubmit
  · cases hresult₂
  · rw [List.append_nil] at hl
    cases hresult₁
    cases hresult₂
    rw [← hl]
    rfl

/-- Settles O36: the loop's first iteration is the operation of the frame at the head, and the iterations after it are
those of a `SUBMIT` of nothing, behind what the first one noted. -/
theorem submitRunsFrameAtHead : Obligations.SubmitRunsFrameAtHead := by
  intro i s u v r₁ r₂ d₁ d₂ hfits hdecode hframe hresult₁ hsubmit hresult₂
  obtain ⟨hmarker, h5, hsize, hi⟩ := decode_candidate_eq_ok hdecode
  rw [exec_envelope hi] at hframe
  have hturn := turn_of_candidate_at_head s.cfg (l := Framing.start s s.buf) hmarker h5 hsize
  calc exec (.submit []) s
      = finishFraming s (runFramer s.cfg (Framing.start s s.buf)) := execSubmit_nil_of_fits hfits
    _ = finishFraming s (runFramer s.cfg
          (takeCandidate s.cfg (s.buf.take (candidateSize s.buf)) (Framing.start s s.buf))) := by
        rw [runFramer_unroll, hturn]
        rfl
    _ = .next (v.withResult (.ok (r₁ ++ r₂) (d₁ ++ d₂))) :=
        finishFraming_then_submit_nil hframe hresult₁ hsubmit hresult₂

end Sys2Proof.Machine

/-!
The statements of 10_state.md: what each instruction writes (R14, R17, R18, R21; 40_crc.md R63), the buffer's invariant
over a step (R14; 41_framer.md R82 P2), and the state after reset (R23).
-/

namespace Sys2Proof.Machine

/-! ## What an instruction writes -/

/-- The second beat writes the register, or is refused (40_crc.md R63; 93_implementation_defined.md U7). -/
theorem execCrcNext_eq_next {b : Byte} {s t : State} (h : execCrcNext b s = .next t) :
    (s.crcOpen = true ∧ crcBeat s.crcr b s = .next t) ∨
    (s.crcOpen = false ∧ t = s.withResult (.refused .noCrcMessage)) := by
  unfold execCrcNext at h
  split at h
  case isTrue hopen => exact .inl ⟨hopen, h⟩
  case isFalse hclosed => exact .inr ⟨by simpa using hclosed, refuse_eq_next.mp h⟩

/-- A candidate as an operation of its own consumes its bytes, whatever its stop marker (41_framer.md R80). -/
theorem candidateOp_drops {f : Bytes} {s t : State} (h : candidateOp f s = .next t) :
    ∃ n r, t = ((s.withBuf (s.buf.drop f.length)).withDraws n).withResult r := by
  obtain ⟨-, r, -, ht⟩ | ⟨-, ht⟩ := candidateOp_eq_next h
  · exact ⟨_, _, ht⟩
  · exact ⟨s.draws, _, ht⟩

/-- Everything an instruction can write: RESET, a `SUBMIT` that fits, an envelope and an accepted beat each have their
own fields; any other completion, a refusal included, writes the samples drawn and the result at most. -/
theorem exec_cases {i : Instr} {s t : State} (h : exec i s = .next t) :
    (i = .reset ∧ t = ((s.withBuf []).withCrcOpen false).withResult .noResult) ∨
    (∃ chunk l, i = .submit chunk ∧ chunkFits s chunk = true ∧
      l = runFramer s.cfg (Framing.start s (s.buf ++ chunk)) ∧
      t = ((s.withBuf l.buf).withDraws l.draws).withResult (.ok l.out l.diag)) ∨
    (∃ f n r, (i = .frameStd f ∨ i = .frameExt f) ∧
      t = ((s.withBuf (s.buf.drop f.length)).withDraws n).withResult r) ∨
    (∃ b c r, (i = .crcFirst b ∨ i = .crcNext b) ∧ t = ((s.withCrcr c).withCrcOpen true).withResult r) ∨
    (∃ n r, t = (s.withDraws n).withResult r) := by
  cases i with
  | reset => exact .inl ⟨rfl, complete_eq_next.mp h⟩
  | submit chunk =>
    obtain ⟨-, ht⟩ | ⟨hfits, l, hl, ht⟩ := execSubmit_eq_next h
    · exact .inr (.inr (.inr (.inr ⟨s.draws, _, ht⟩)))
    · exact .inr (.inl ⟨chunk, l, rfl, hfits, hl, ht⟩)
  | frameStd f =>
    obtain ⟨n, r, ht⟩ := candidateOp_drops h
    exact .inr (.inr (.inl ⟨f, n, r, .inl rfl, ht⟩))
  | frameExt f =>
    obtain ⟨n, r, ht⟩ := candidateOp_drops h
    exact .inr (.inr (.inl ⟨f, n, r, .inr rfl, ht⟩))
  | crcFirst b => exact .inr (.inr (.inr (.inl ⟨b, _, _, .inl rfl, complete_eq_next.mp h⟩)))
  | crcNext b =>
    obtain ⟨-, hbeat⟩ | ⟨-, ht⟩ := execCrcNext_eq_next h
    · exact .inr (.inr (.inr (.inl ⟨b, _, _, .inr rfl, complete_eq_next.mp hbeat⟩)))
    · exact .inr (.inr (.inr (.inr ⟨s.draws, _, ht⟩)))
  | buildAck | crc16 | reserved110 | reserved111 | ackFrame =>
    exact .inr (.inr (.inr (.inr ⟨s.draws, _, complete_eq_next.mp h⟩)))
  | login | gpsLbsStatus | statusInfo | stringInfo | alarmData | gpsLbsData | gpsLbsStatusA0 | unknownAck18
  | unknownAck19 | unknownAck21 | unknown =>
    exact .inr (.inr (.inr (.inr ⟨_, _, decodeOp_eq_next.mp h⟩)))

/-- No instruction writes a parameter (10_state.md R18) or the port, which only `step` takes requests off (log 1). -/
theorem exec_keeps_cfg_and_port {i : Instr} {s t : State} (h : exec i s = .next t) :
    t.cfg = s.cfg ∧ t.port = s.port := by
  obtain ⟨-, rfl⟩ | ⟨_, _, -, -, -, rfl⟩ | ⟨_, _, _, -, rfl⟩ | ⟨_, _, _, -, rfl⟩ | ⟨_, _, rfl⟩ := exec_cases h <;>
    exact ⟨rfl, rfl⟩

/-- No instruction reads the last result: each computes from the other fields and ends by overwriting it (10_state.md
R17, R21). -/
theorem exec_withResult (i : Instr) (s : State) (r : Result) : exec i (s.withResult r) = exec i s := by
  cases i <;> rfl

/-- Settles O6: every outcome of an instruction leaves the parameters and the port, and every instruction overwrites the
last result unread. -/
theorem parametersFixedResultsUnread : Obligations.ParametersFixedResultsUnread := by
  intro i s t r h
  obtain ⟨hcfg, hport⟩ := exec_keeps_cfg_and_port h
  exact ⟨hcfg, hport, (exec_withResult i s r).trans h⟩

/-- Settles O7: of the outcomes of an instruction, three write `BUF`, the accepted beat `CRCR`, and the beat and RESET
the open-message bit. -/
theorem whoWritesBufferAndCrcr : Obligations.WhoWritesBufferAndCrcr := by
  intro i s t h
  obtain ⟨rfl, rfl⟩ | ⟨chunk, _, rfl, -, -, rfl⟩ | ⟨f, _, _, hi, rfl⟩ | ⟨b, _, _, hi, rfl⟩ | ⟨_, _, rfl⟩ := exec_cases h
  · exact ⟨fun ⟨hreset, _⟩ => absurd rfl hreset, fun _ _ => ⟨rfl, fun hreset => absurd rfl hreset⟩⟩
  · exact ⟨fun ⟨_, hsubmit, _⟩ => absurd rfl (hsubmit chunk), fun _ _ => ⟨rfl, fun _ => rfl⟩⟩
  · exact ⟨fun ⟨_, _, hstd, hext⟩ => (hi.elim (hstd f) (hext f)).elim, fun _ _ => ⟨rfl, fun _ => rfl⟩⟩
  · exact ⟨fun _ _ => rfl, fun hfirst hnext => (hi.elim (hfirst b) (hnext b)).elim⟩
  · exact ⟨fun _ _ => rfl, fun _ _ => ⟨rfl, fun _ => rfl⟩⟩

/-! ## The form of the buffer -/

theorem framed_iff {b : Bytes} :
    framed b = true ↔ b.length < 5 ∨ (markerAtHead b = true ∧ b.length < candidateSize b) := by
  simp [framed]

@[simp] theorem framed_nil : framed [] = true := rfl

/-- In the form of P2 no candidate at the head is complete: nothing decodes there (41_framer.md R77, R78). -/
theorem not_decode_candidate_of_framed {b : Bytes} (h : framed b = true) (i : Instr) :
    decode (.candidate b) ≠ .ok i := by
  intro hdecode
  obtain ⟨-, h5, hsize, -⟩ := decode_candidate_eq_ok hdecode
  obtain hshort | ⟨-, hwaits⟩ := framed_iff.mp h <;> omega

/-- An iteration that stops leaves a tail of the buffer, in the form of P2 (41_framer.md R73, R75, R77, R78). -/
theorem turn_stop_tail {c : Config} {l l' : Framing} (h : turn c l = .stop l') :
    framed l'.buf = true ∧ l'.buf <:+ l.buf := by
  obtain ⟨hshort, e⟩ | ⟨-, -, e⟩ | ⟨i, -, hfind, hwaits, e⟩ | ⟨_, -, -, -, -, e⟩ := turn_cases c l <;> rw [e] at h <;>
    cases h
  · exact ⟨framed_iff.mpr (.inl hshort), List.suffix_refl _⟩
  · exact ⟨framed_nil, List.nil_suffix⟩
  · exact ⟨framed_iff.mpr (hwaits.imp_right fun hsize => ⟨findMarker_markerAtHead hfind, hsize⟩),
      List.drop_suffix i l.buf⟩

/-- An iteration that goes round again leaves a tail of the buffer (41_framer.md R76, R80). -/
theorem turn_again_tail {c : Config} {l l' : Framing} (h : turn c l = .again l') : l'.buf <:+ l.buf := by
  obtain ⟨-, e⟩ | ⟨-, -, e⟩ | ⟨_, -, -, -, e⟩ | ⟨i, -, -, -, -, e⟩ := turn_cases c l <;> rw [e] at h <;> cases h
  rw [takeCandidate_buf]
  exact (List.drop_suffix _ _).trans (List.drop_suffix i l.buf)

/-- The whole loop leaves a tail of the buffer, in the form of P2 (41_framer.md R82). -/
theorem runFramer_tail (c : Config) (l : Framing) :
    framed (runFramer c l).buf = true ∧ (runFramer c l).buf <:+ l.buf := by
  obtain ⟨m, hm, hstop⟩ := frameLoop_induct (c := c) (fun m => m.buf <:+ l.buf)
    (fun _ _ htail hagain => (turn_again_tail hagain).trans htail) (l.buf.length + 1) l (List.suffix_refl _)
    (Nat.lt_succ_self _)
  obtain ⟨hframed, htail⟩ := turn_stop_tail hstop
  exact ⟨hframed, htail.trans hm⟩

/-! ## The invariant over a step -/

/-- The invariant is about the parameters and the buffer alone. -/
theorem Inv.congr {s t : State} (h : Inv s) (hcfg : t.cfg = s.cfg) (hbuf : t.buf = s.buf) : Inv t := by
  unfold Inv
  rwa [hcfg, hbuf]

/-- Every instruction but an envelope keeps the invariant. An envelope drops the length of its own candidate, whatever
stands in `BUF`, and need not leave the form of P2. -/
theorem exec_keeps_inv {i : Instr} {s t : State} (hinv : Inv s) (hi : ∀ f, i ≠ .frameStd f ∧ i ≠ .frameExt f)
    (h : exec i s = .next t) : Inv t := by
  obtain ⟨-, rfl⟩ | ⟨chunk, _, -, hfits, rfl, rfl⟩ | ⟨f, _, _, henvelope, -⟩ | ⟨_, _, _, -, rfl⟩ |
    ⟨_, _, rfl⟩ := exec_cases h
  · exact ⟨framed_nil, Memory.wf_nil _⟩
  · obtain ⟨hframed, htail⟩ := runFramer_tail s.cfg (Framing.start s (s.buf ++ chunk))
    have hcap : Memory.wf s.cfg (s.buf ++ chunk) = true := Memory.wf_append (Bool.and_eq_true_iff.mp hfits).1
    exact ⟨hframed, within_mono hcap htail.length_le⟩
  · exact (henvelope.elim (hi f).1 (hi f).2).elim
  · exact hinv.congr rfl rfl
  · exact hinv.congr rfl rfl

theorem decodeCommand_not_envelope {cmd : BitVec 3} {ops : Bytes} {i : Instr} (h : decodeCommand cmd ops = .ok i)
    (f : Bytes) : i ≠ .frameStd f ∧ i ≠ .frameExt f := by
  unfold decodeCommand at h
  split at h <;> cases h <;> exact ⟨nofun, nofun⟩

theorem kindOf_not_envelope (code : Byte) (g f : Bytes) : kindOf code g ≠ .frameStd f ∧ kindOf code g ≠ .frameExt f := by
  unfold kindOf
  repeat' split
  all_goals exact ⟨nofun, nofun⟩

/-- An envelope is met only at the head of `BUF` (30_encoding.md R40; log 3). -/
theorem not_envelope_of_decode {code : Code} {i : Instr} (h : decode code = .ok i)
    (hplace : ∀ b, code ≠ .candidate b) (f : Bytes) : i ≠ .frameStd f ∧ i ≠ .frameExt f := by
  cases code with
  | command cmd ops => exact decodeCommand_not_envelope h f
  | candidate b => exact absurd rfl (hplace b)
  | dispatch g =>
    simp only [decode, decodeKind] at h
    split at h <;> cases h
    exact kindOf_not_envelope _ g f
  | ackOut b =>
    simp only [decode, decodeAck] at h
    split at h <;> cases h
    exact ⟨nofun, nofun⟩

/-- With a framed buffer, no request runs as an envelope: that needs a complete candidate at the head of `BUF`. -/
theorem not_envelope_of_framed {r : Request} {b : Bytes} {i : Instr} (hframed : framed b = true)
    (h : decode (present r b) = .ok i) (f : Bytes) : i ≠ .frameStd f ∧ i ≠ .frameExt f := by
  cases r with
  | candidate => exact absurd h (not_decode_candidate_of_framed hframed i)
  | command | dispatch | ackOut => exact not_envelope_of_decode h nofun f

/-- What a request taken off the port does: it runs as the instruction it decodes to, or waits (60_exceptions.md R134). -/
theorem runRequest_eq_next {r : Request} {s t : State} (h : runRequest r s = .next t) :
    t = s ∨ ∃ i, decode (present r s.buf) = .ok i ∧ exec i s = .next t := by
  unfold runRequest at h
  split at h
  case h_1 i hdecode => exact .inr ⟨i, hdecode, h⟩
  case h_2 =>
    split at h <;> cases h
    exact .inl rfl

/-- What a step does: nothing, with an empty port; otherwise it takes the oldest request off the port and runs it
(60_exceptions.md R146). -/
theorem step_eq_next {s t : State} (h : step s = .next t) :
    t = s ∨ ∃ r rest, s.port = r :: rest ∧ runRequest r (s.withPort rest) = .next t := by
  unfold step stepPort at h
  split at h
  case h_1 => exact .inl (Host.Outcome.next.inj h).symm
  case h_2 r rest hport => exact .inr ⟨r, rest, hport, h⟩

/-- Settles O4: the loop of a `SUBMIT` ends in the form of P2 with no more bytes than fitted, RESET empties `BUF`, an
envelope finds no complete candidate in a buffer of that form, and the other instructions leave `BUF`. -/
theorem stepKeepsFramedBuffer : Obligations.StepKeepsFramedBuffer := by
  intro s t hinv h
  obtain rfl | ⟨r, rest, -, hrun⟩ := step_eq_next h
  · exact hinv
  have hinv' : Inv (s.withPort rest) := hinv.congr rfl rfl
  obtain rfl | ⟨i, hdecode, hexec⟩ := runRequest_eq_next hrun
  · exact hinv'
  exact exec_keeps_inv hinv' (not_envelope_of_framed hinv'.1 hdecode) hexec

/-! ## The state after reset -/

/-- Settles O5: the empty buffer is framed, and within any capacity. -/
theorem resetMeetsInvariant : Obligations.ResetMeetsInvariant := ⟨framed_nil, Memory.wf_reset⟩

/-- Settles O8: the values are those `State.reset` and `Config.default` write out. -/
theorem resetStateOfTheSpec : Obligations.ResetStateOfTheSpec :=
  ⟨State.reset_buf, rfl, rfl, rfl, rfl, rfl⟩

end Sys2Proof.Machine

/-!
The statement of 20_memory.md: the CRC commands and BUILD_ACK commute with the commands that write `BUF` (R37 O5).
-/

namespace Sys2Proof.Machine

/-- Every instruction completes: a refused command too is a next state (60_exceptions.md R131; log 19). -/
theorem exec_completes (i : Instr) (s : State) : ∃ t, exec i s = .next t := by
  cases i with
  | submit chunk =>
    change ∃ t, execSubmit chunk s = .next t
    unfold execSubmit
    split <;> exact ⟨_, rfl⟩
  | crcNext b =>
    change ∃ t, execCrcNext b s = .next t
    unfold execCrcNext
    split <;> exact ⟨_, rfl⟩
  | reset | buildAck | crc16 | crcFirst | reserved110 | reserved111 | frameStd | frameExt | ackFrame | login
  | gpsLbsStatus | statusInfo | stringInfo | alarmData | gpsLbsData | gpsLbsStatusA0 | unknownAck18 | unknownAck19
  | unknownAck21 | unknown => exact ⟨_, rfl⟩

/-- From `s` both orders of two instructions complete, each has the same result in both, and the final states agree but
for the last result: the conclusion of `Obligations.CrcAndAckCommute` for one pair and one state. -/
def CommuteAt (i j : Instr) (s : State) : Prop :=
  ∃ a b a' b', exec i s = .next a ∧ exec j a = .next b ∧ exec j s = .next a' ∧ exec i a' = .next b' ∧
    b.result = a'.result ∧ b'.result = a.result ∧ b'.withResult b.result = b

/-- Two instructions commute when the writes of the first, `u`, change neither the result of the second nor what it makes
of the other fields, and the first answers `p` after the second too: neither reads the last result. -/
theorem commuteAt_of_writes {i j : Instr} {s u v w : State} {p : Result} (hi : exec i s = .next (u.withResult p))
    (hj : exec j s = .next v) (hij : exec j u = .next w) (hji : exec i v = .next (w.withResult p))
    (hresult : w.result = v.result) : CommuteAt i j s :=
  ⟨_, _, _, _, hi, (exec_withResult j u p).trans hij, hj, hji, hresult, rfl, rfl⟩

/-- CRC16 and BUILD_ACK answer from their operands alone and write nothing but the result (40_crc.md R62; 44_ack.md
R126). -/
theorem exec_crc16_or_buildAck {i : Instr} (hi : (∃ d, i = .crc16 d) ∨ ∃ n c, i = .buildAck n c) :
    ∃ p, ∀ s, exec i s = .next (s.withResult p) := by
  obtain ⟨d, rfl⟩ | ⟨n, c, rfl⟩ := hi <;> exact ⟨_, fun _ => rfl⟩

/-- A beat reads and writes `CRCR` and the open-message bit alone: what it writes and answers is the same from every
state that agrees on the two (40_crc.md R63). -/
theorem exec_beat_of_same_register {i : Instr} {b : Byte} (hi : i = .crcFirst b ∨ i = .crcNext b) (s : State) :
    ∃ c o p, ∀ t : State, t.crcr = s.crcr → t.crcOpen = s.crcOpen →
      exec i t = .next (((t.withCrcr c).withCrcOpen o).withResult p) := by
  obtain rfl | rfl := hi
  · exact ⟨_, _, _, fun _ _ _ => rfl⟩
  · cases hopen : s.crcOpen
    case true =>
      refine ⟨crcByte s.crcr b, true, .crc (crcResult (crcByte s.crcr b)), fun t hcrcr ht => ?_⟩
      change execCrcNext b t = _
      rw [execCrcNext, if_pos ht, hcrcr]
      rfl
    case false =>
      refine ⟨s.crcr, false, .refused .noCrcMessage, fun t hcrcr ht => ?_⟩
      change execCrcNext b t = _
      rw [execCrcNext, if_neg (by simp [ht]), ← hcrcr, ← ht]
      rfl

/-- `SUBMIT` neither reads nor writes `CRCR` and the open-message bit (10_state.md R14): from a state with others there
it does the same and keeps those. -/
theorem exec_submit_withCrcr_withCrcOpen {chunk : Bytes} {s t : State} (h : exec (.submit chunk) s = .next t)
    (c : BitVec 16) (o : Bool) :
    exec (.submit chunk) ((s.withCrcr c).withCrcOpen o) = .next ((t.withCrcr c).withCrcOpen o) := by
  have hfits : chunkFits ((s.withCrcr c).withCrcOpen o) chunk = chunkFits s chunk := rfl
  change execSubmit chunk _ = _
  obtain ⟨hf, rfl⟩ | ⟨hf, l, rfl, rfl⟩ := execSubmit_eq_next h <;> rw [execSubmit, hfits, hf] <;> rfl

/-- CRC16 and BUILD_ACK commute with every instruction. -/
theorem crc16_or_buildAck_commuteAt {i : Instr} (hi : (∃ d, i = .crc16 d) ∨ ∃ n c, i = .buildAck n c) (j : Instr)
    (s : State) : CommuteAt i j s := by
  obtain ⟨p, hp⟩ := exec_crc16_or_buildAck hi
  obtain ⟨t, ht⟩ := exec_completes j s
  exact commuteAt_of_writes (hp s) ht ht (hp t) rfl

/-- A beat commutes with `SUBMIT`. -/
theorem beat_commuteAt_submit {i : Instr} {b : Byte} (hi : i = .crcFirst b ∨ i = .crcNext b) (chunk : Bytes)
    (s : State) : CommuteAt i (.submit chunk) s := by
  obtain ⟨c, o, p, hbeat⟩ := exec_beat_of_same_register hi s
  obtain ⟨t, ht⟩ := exec_completes (.submit chunk) s
  obtain ⟨hcrcr, hopen⟩ := (whoWritesBufferAndCrcr _ _ _ ht).2 nofun nofun
  exact commuteAt_of_writes (hbeat s rfl rfl) ht (exec_submit_withCrcr_withCrcOpen ht c o)
    (hbeat t hcrcr (hopen nofun)) rfl

/-- Settles O21: CRC16 and BUILD_ACK write the result alone and read nothing, so they commute with every instruction; a
beat commutes with `SUBMIT`, since one works on `CRCR` and its message and the other on `BUF` and the samples. -/
theorem crcAndAckCommute : Obligations.CrcAndAckCommute := by
  intro i j s hi hj
  obtain hcrc | hack | ⟨⟨b, hbeat⟩, hreset⟩ := hi
  · exact crc16_or_buildAck_commuteAt (.inl hcrc) j s
  · exact crc16_or_buildAck_commuteAt (.inr hack) j s
  · obtain ⟨chunk, rfl⟩ | rfl := hj
    · exact beat_commuteAt_submit hbeat chunk s
    · exact absurd rfl hreset

end Sys2Proof.Machine

/-!
The statements of 30_encoding.md: the encoder and the decoder are inverse to each other (R40 to R51), the two start
markers are treated alike (R41), and the registry's names (R50).
-/

namespace Sys2Proof.Machine

/-! ## Sixteen-bit operands as two bytes -/

/-- The two bytes of a 16-bit value put together high byte first are the high and the low one (20_memory.md R29). -/
@[simp] theorem bytesBE16_append (h l : Byte) : bytesBE16 (h ++ l) = [h, l] := by
  rw [bytesBE16, BitVec.extractLsb'_append_eq_left, BitVec.extractLsb'_append_eq_right]

/-- Every 16-bit value is a high byte in front of a low one. -/
theorem exists_eq_byte_append (v : BitVec 16) : ∃ h l : Byte, v = h ++ l :=
  ⟨v.extractLsb' 8 8, v.extractLsb' 0 8, by
    rw [BitVec.extractLsb'_append_extractLsb'_eq_extractLsb' (Nat.zero_add 8).symm, BitVec.extractLsb'_eq_self]⟩

/-! ## The acknowledgment pattern -/

/-- The ten bytes of the pattern (30_encoding.md R47), the CRC bytes given by the CRC of the four covered ones
(44_ack.md R127). -/
theorem ackBytes_append {sh sl code ch cl : Byte} (hcrc : crc16 [0x05, code, sh, sl] = ch ++ cl) :
    ackBytes (sh ++ sl) code = [0x78, 0x78, 0x05, code, sh, sl, ch, cl, 0x0D, 0x0A] := by
  have hbody : ackBody (sh ++ sl) code = [0x05, code, sh, sl] := by
    rw [ackBody, bytesBE16_append]
    rfl
  rw [ackBytes, hbody, hcrc, bytesBE16_append]
  rfl

/-- The pattern with the right CRC bytes decodes to the acknowledgment of its serial and code. -/
theorem decode_ackOut {sh sl code ch cl : Byte} (hcrc : crc16 [0x05, code, sh, sl] = ch ++ cl) :
    decode (.ackOut [0x78, 0x78, 0x05, code, sh, sl, ch, cl, 0x0D, 0x0A]) = .ok (.ackFrame (sh ++ sl) code) :=
  if_pos (ackBytes_append hcrc).symm

/-- With any other CRC bytes it decodes to nothing. -/
theorem decode_ackOut_of_wrong_crc {sh sl code ch cl : Byte} (hcrc : crc16 [0x05, code, sh, sl] ≠ ch ++ cl) :
    decode (.ackOut [0x78, 0x78, 0x05, code, sh, sl, ch, cl, 0x0D, 0x0A]) = .error .notAnAck := by
  obtain ⟨ch', cl', hcrc'⟩ := exists_eq_byte_append (crc16 [0x05, code, sh, sl])
  refine if_neg fun hb => hcrc ?_
  cases hb.trans (ackBytes_append hcrc')
  exact hcrc'

theorem decode_encode_ackFrame (serial : BitVec 16) (code : Byte) :
    decode (encode (.ackFrame serial code)) = .ok (.ackFrame serial code) := by
  obtain ⟨sh, sl, rfl⟩ := exists_eq_byte_append serial
  obtain ⟨ch, cl, hcrc⟩ := exists_eq_byte_append (crc16 [0x05, code, sh, sl])
  rw [encode, ackBytes_append hcrc, decode_ackOut hcrc]

/-- What decodes at the acknowledgment output is the encoding of its instruction. -/
theorem encode_of_decodeAck {b : Bytes} {i : Instr} (h : decodeAck b = .ok i) :
    i.WellFormed ∧ encode i = .ackOut b := by
  unfold decodeAck at h
  split at h <;> cases h
  case isTrue hb => exact ⟨rfl, congrArg Code.ackOut hb.symm⟩

/-- Settles O19: the operation puts out the pattern's ten bytes, which decode back to it, and BUILD_ACK is the same
operation of its operands. -/
theorem ackFrameOutput : Obligations.AckFrameOutput := by
  intro sh sl code ch cl s hcrc
  refine ⟨?_, decode_ackOut hcrc, rfl⟩
  rw [← ackBytes_append hcrc]
  rfl

/-! ## Commands -/

theorem decode_encode_buildAck (serial : BitVec 16) (code : Byte) :
    decode (encode (.buildAck serial code)) = .ok (.buildAck serial code) := by
  obtain ⟨sh, sl, rfl⟩ := exists_eq_byte_append serial
  rw [encode, bytesBE16_append]
  rfl

/-- What decodes on the command port is the encoding of its instruction (30_encoding.md R48, R49). -/
theorem encode_of_decodeCommand {cmd : BitVec 3} {ops : Bytes} {i : Instr} (h : decodeCommand cmd ops = .ok i) :
    i.WellFormed ∧ encode i = .command cmd ops := by
  unfold decodeCommand at h
  split at h <;> cases h
  case h_1 hcmd | h_3 hcmd | h_6 hcmd | h_7 hcmd | h_9 hcmd | h_11 hcmd =>
    exact ⟨rfl, congrArg (Code.command · _) (BitVec.eq_of_toNat_eq hcmd.symm)⟩
  case h_4 sh sl code hcmd =>
    obtain rfl : cmd = 2 := BitVec.eq_of_toNat_eq hcmd
    exact ⟨rfl, by rw [encode, bytesBE16_append]; rfl⟩
  case h_12 h0 h1 h2 h3 h4 h5 h6 _ _ _ _ =>
    have hcmd : cmd.toNat = 7 := by
      change ¬ _ at h0 h1 h2 h3 h4 h5 h6
      have hlt := cmd.isLt
      omega
    exact ⟨rfl, congrArg (Code.command · _) (BitVec.eq_of_toNat_eq hcmd.symm)⟩

/-! ## Candidates -/

theorem isCandidate_iff {f : Bytes} :
    isCandidate f = true ↔ 5 ≤ f.length ∧ markerAtHead f = true ∧ f.length = candidateSize f := by
  simp [isCandidate, and_assoc]

theorem wellFormed_frameStd_iff {f : Bytes} :
    (Instr.frameStd f).WellFormed ↔ isCandidate f = true ∧ byteAt f 0 = 0x78 := by
  simp [Instr.WellFormed, Instr.wellFormed]

theorem wellFormed_frameExt_iff {f : Bytes} :
    (Instr.frameExt f).WellFormed ↔ isCandidate f = true ∧ byteAt f 0 = 0x79 := by
  simp [Instr.WellFormed, Instr.wellFormed]

/-- A start marker begins with one of its two bytes (30_encoding.md R41). -/
theorem byteAt_zero_of_markerAtHead {b : Bytes} (h : markerAtHead b = true) :
    byteAt b 0 = 0x78 ∨ byteAt b 0 = 0x79 := by
  match b with
  | [] | [_] => cases h
  | x :: y :: rest =>
    simp only [markerAtHead, isMarker, Bool.and_eq_true, Bool.or_eq_true, beq_iff_eq] at h
    exact h.2

theorem markerAtHead_take {n : Nat} (hn : 2 ≤ n) (b : Bytes) : markerAtHead (b.take n) = markerAtHead b := by
  obtain ⟨k, rfl⟩ := Nat.exists_eq_add_of_le' hn
  match b with
  | [] | [_] | _ :: _ :: _ => rfl

theorem byteAt_take {o n : Nat} (h : o < n) (b : Bytes) : byteAt (b.take n) o = byteAt b o := by
  simp [byteAt, List.getD, List.getElem?_take_of_lt h]

/-- The `L + 5` bytes behind a start marker are a candidate (41_framer.md R76 to R79). -/
theorem isCandidate_take {b : Bytes} (hmarker : markerAtHead b = true) (hsize : candidateSize b ≤ b.length) :
    isCandidate (b.take (candidateSize b)) = true := by
  have h5 := candidateSize_pos b
  have hlength : (b.take (candidateSize b)).length = candidateSize b := List.length_take_of_le hsize
  refine isCandidate_iff.mpr ⟨hlength.symm ▸ h5, ?_, hlength.trans ?_⟩
  · rwa [markerAtHead_take (by omega)]
  · rw [candidateSize, candidateSize, byteAt_take (by rw [candidateSize] at *; omega)]

/-- With a complete candidate at the head, the first marker byte says which envelope it is (30_encoding.md R41). -/
theorem decode_complete_candidate {b : Bytes} (hmarker : markerAtHead b = true) (h5 : 5 ≤ b.length)
    (hsize : candidateSize b ≤ b.length) :
    decode (.candidate b) = .ok (if byteAt b 0 = 0x78 then .frameStd (b.take (candidateSize b))
      else .frameExt (b.take (candidateSize b))) := by
  simp only [decode, decodeCandidate, hmarker, Nat.not_lt.mpr h5, Nat.not_lt.mpr hsize, if_true, if_false]
  split <;> rfl

/-- A candidate alone decodes to its envelope around all of it. -/
theorem decode_of_isCandidate {f : Bytes} (h : isCandidate f = true) :
    decode (.candidate f) = .ok (if byteAt f 0 = 0x78 then .frameStd f else .frameExt f) := by
  obtain ⟨h5, hmarker, hlength⟩ := isCandidate_iff.mp h
  rw [decode_complete_candidate hmarker h5 hlength.ge, List.take_of_length_le hlength.le]

/-- What decodes at the head of `BUF` is the encoding of the candidate there, followed by the bytes that are left
(30_encoding.md R42). -/
theorem encode_of_decode_candidate {b : Bytes} {i : Instr} (h : decode (.candidate b) = .ok i) :
    i.WellFormed ∧ encode i = .candidate (b.take (candidateSize b)) ∧ candidateSize b ≤ b.length := by
  obtain ⟨hmarker, h5, hsize, -⟩ := decode_candidate_eq_ok h
  rw [decode_complete_candidate hmarker h5 hsize] at h
  have hcandidate := isCandidate_take hmarker hsize
  have hhead : byteAt (b.take (candidateSize b)) 0 = byteAt b 0 :=
    byteAt_take (Nat.lt_of_lt_of_le (by decide) (candidateSize_pos b)) b
  split at h <;> cases h
  case isTrue hstd => exact ⟨wellFormed_frameStd_iff.mpr ⟨hcandidate, hhead.trans hstd⟩, rfl, hsize⟩
  case isFalse hstd =>
    have hext := (byteAt_zero_of_markerAtHead hmarker).resolve_left hstd
    exact ⟨wellFormed_frameExt_iff.mpr ⟨hcandidate, hhead.trans hext⟩, rfl, hsize⟩

/-! ## Frame kinds -/

theorem frameOfKind_iff {code : Byte} {f : Bytes} :
    frameOfKind code f = true ↔ isFrame f = true ∧ protocolOf f = code := by
  simp [frameOfKind]

@[simp] theorem encode_kindOf (code : Byte) (f : Bytes) : encode (kindOf code f) = .dispatch f := by
  simp only [kindOf, apply_ite encode]
  simp only [encode, ite_self]

theorem wellFormed_unknown_iff {f : Bytes} :
    (Instr.unknown f).WellFormed ↔ isFrame f = true ∧ protocolOf f ∉ rowCodes := by
  simp [Instr.WellFormed, Instr.wellFormed]

/-- A code without a row selects the default arm (30_encoding.md R50). -/
theorem kindOf_eq_unknown {code : Byte} {f : Bytes} (h : code ∉ rowCodes) : kindOf code f = .unknown f := by
  simp only [rowCodes, List.mem_cons, List.not_mem_nil, or_false, not_or] at h
  simp only [kindOf, h, if_false]

/-- A row's code selects the kind whose frames carry it (30_encoding.md R50). -/
theorem wellFormed_kindOf_of_row (f : Bytes) :
    ∀ code ∈ rowCodes, frameOfKind code f = true → (kindOf code f).WellFormed := by
  simp only [rowCodes, List.forall_mem_cons]
  exact ⟨id, id, id, id, id, id, id, id, id, id, nofun⟩

/-- The kind a frame's protocol code selects is well formed: there is no illegal code (30_encoding.md R51). -/
theorem wellFormed_kindOf {f : Bytes} (h : isFrame f = true) : (kindOf (protocolOf f) f).WellFormed := by
  by_cases hrow : protocolOf f ∈ rowCodes
  · exact wellFormed_kindOf_of_row f _ hrow (frameOfKind_iff.mpr ⟨h, rfl⟩)
  · rw [kindOf_eq_unknown hrow]
    exact wellFormed_unknown_iff.mpr ⟨h, hrow⟩

/-- A well-formed kind is the one its frame's protocol code selects. -/
theorem kindOf_of_wellFormed {i : Instr} {f : Bytes} (hf : kindFrame i = some f) (h : i.WellFormed) :
    isFrame f = true ∧ kindOf (protocolOf f) f = i := by
  cases i <;> cases hf
  case unknown =>
    obtain ⟨hframe, hcode⟩ := wellFormed_unknown_iff.mp h
    exact ⟨hframe, kindOf_eq_unknown hcode⟩
  all_goals
    obtain ⟨hframe, hcode⟩ := frameOfKind_iff.mp h
    exact ⟨hframe, by rw [hcode]; rfl⟩

theorem decode_encode_kind {i : Instr} {f : Bytes} (hf : kindFrame i = some f) (h : i.WellFormed) :
    decode (encode i) = .ok i := by
  obtain ⟨hframe, hkind⟩ := kindOf_of_wellFormed hf h
  calc decode (encode i)
      = decode (.dispatch f) := by rw [← hkind, encode_kindOf]
    _ = .ok (kindOf (protocolOf f) f) := if_pos hframe
    _ = .ok i := by rw [hkind]

/-- What decodes at the dispatcher is the encoding of its frame's kind. -/
theorem encode_of_decodeKind {f : Bytes} {i : Instr} (h : decodeKind f = .ok i) :
    i.WellFormed ∧ encode i = .dispatch f := by
  unfold decodeKind at h
  split at h <;> cases h
  case isTrue hframe => exact ⟨wellFormed_kindOf hframe, encode_kindOf _ f⟩

/-! ## Encoder and decoder -/

/-- Settles O58: the operands of a command are read back from their bytes, a candidate and a frame select the
constructor of their own marker and protocol code, and the acknowledgment's pattern determines its serial and code. -/
theorem decodeOfEncode : Obligations.DecodeOfEncode := by
  intro i h
  cases i with
  | reset | submit | crc16 | crcFirst | crcNext | reserved110 | reserved111 => rfl
  | buildAck serial code => exact decode_encode_buildAck serial code
  | frameStd f =>
    obtain ⟨hf, hhead⟩ := wellFormed_frameStd_iff.mp h
    rw [encode, decode_of_isCandidate hf, if_pos hhead]
  | frameExt f =>
    obtain ⟨hf, hhead⟩ := wellFormed_frameExt_iff.mp h
    rw [encode, decode_of_isCandidate hf, if_neg (by simp [hhead])]
  | ackFrame serial code => exact decode_encode_ackFrame serial code
  | login | gpsLbsStatus | statusInfo | stringInfo | alarmData | gpsLbsData | gpsLbsStatusA0 | unknownAck18
  | unknownAck19 | unknownAck21 | unknown => exact decode_encode_kind rfl h

/-- Settles O59: place by place, what the decoder answers is well formed and encodes to what was read; behind a
candidate stand the bytes that are left. -/
theorem encodeOfDecode : Obligations.EncodeOfDecode := by
  intro c i h
  cases c with
  | command cmd ops => exact encode_of_decodeCommand h
  | candidate b =>
    obtain ⟨hwf, hencode, hsize⟩ := encode_of_decode_candidate h
    exact ⟨hwf, _, b.drop (candidateSize b), hencode, (List.take_append_drop ..).symm, List.length_take_of_le hsize⟩
  | dispatch f => exact encode_of_decodeKind h
  | ackOut b => exact encode_of_decodeAck h

/-! ## The two start markers -/

/-- The record with other frame bytes in `raw` (42_dispatch.md R86). -/
def Record.withRaw (r : Record) (raw : Bytes) : Record := { r with raw := raw }

section WithRaw

/-! No payload decoder reads or writes `raw`: replacing it before or after comes to the same. -/

variable (c : Config) (p : Bytes) (r : Record) (raw : Bytes)

theorem withRaw_pdLogin : (pdLogin p r).withRaw raw = pdLogin p (r.withRaw raw) := by
  unfold pdLogin
  split <;> rfl

theorem withRaw_pdStatus (l : StatusBits) : (pdStatus l p r).withRaw raw = pdStatus l p (r.withRaw raw) := by
  unfold pdStatus
  split <;> rfl

theorem withRaw_leftOver (off : Nat) : (leftOver p off r).withRaw raw = leftOver p off (r.withRaw raw) := by
  unfold leftOver
  split <;> rfl

theorem withRaw_gpsCell : (gpsCell p r).withRaw raw = gpsCell p (r.withRaw raw) := by
  unfold gpsCell
  split <;> exact withRaw_leftOver ..

theorem withRaw_gpsStatusWord : (gpsStatusWord c p r).withRaw raw = gpsStatusWord c p (r.withRaw raw) := by
  unfold gpsStatusWord
  split
  · exact withRaw_gpsCell ..
  · exact withRaw_leftOver ..

theorem withRaw_gpsSpeed : (gpsSpeed c p r).withRaw raw = gpsSpeed c p (r.withRaw raw) := by
  unfold gpsSpeed
  split
  · exact withRaw_gpsStatusWord ..
  · exact withRaw_leftOver ..

theorem withRaw_gpsLongitude : (gpsLongitude c p r).withRaw raw = gpsLongitude c p (r.withRaw raw) := by
  unfold gpsLongitude
  split
  · exact withRaw_gpsSpeed ..
  · exact withRaw_leftOver ..

theorem withRaw_pdGpsLbs : (pdGpsLbs c p r).withRaw raw = pdGpsLbs c p (r.withRaw raw) := by
  unfold pdGpsLbs
  split
  · rfl
  · exact withRaw_gpsLongitude ..

theorem withRaw_pdAlarm : (pdAlarm c p r).withRaw raw = pdAlarm c p (r.withRaw raw) := by
  unfold pdAlarm
  split
  · rfl
  · exact withRaw_pdGpsLbs ..

theorem withRaw_pdGpsLbsA0 : (pdGpsLbsA0 c p r).withRaw raw = pdGpsLbsA0 c p (r.withRaw raw) := by
  unfold pdGpsLbsA0 a0Latitude a0Longitude a0Speed a0StatusWord
  repeat' split
  all_goals rfl

theorem withRaw_payloadDecoder (code : Byte) :
    (payloadDecoder c code p r).withRaw raw = payloadDecoder c code p (r.withRaw raw) := by
  simp only [payloadDecoder, apply_ite (Record.withRaw · raw), withRaw_pdLogin, withRaw_pdGpsLbs, withRaw_pdStatus,
    withRaw_pdAlarm, withRaw_pdGpsLbsA0]
  rfl

end WithRaw

section OtherMarker

variable (a b a' b' : Byte) {rest : Bytes}

/-- Behind the first two bytes nothing depends on them. -/
theorem byteAt_behind_two {o : Nat} (h : 2 ≤ o) : byteAt (a :: b :: rest) o = byteAt (a' :: b' :: rest) o := by
  obtain ⟨k, rfl⟩ := Nat.exists_eq_add_of_le' h
  rfl

theorem stopOk_behind_two (h : 2 ≤ rest.length) : stopOk (a :: b :: rest) = stopOk (a' :: b' :: rest) := by
  have hlast (k : Nat) (hk : k ≤ 2) : byteAt (a :: b :: rest) ((a :: b :: rest).length - k) =
      byteAt (a' :: b' :: rest) ((a :: b :: rest).length - k) :=
    byteAt_behind_two a b a' b' (by simp only [List.length_cons]; omega)
  rw [stopOk, hlast 2 (by decide), hlast 1 (by decide)]
  rfl

/-- In a frame of 10 bytes or more every common field but `raw` lies behind the start marker (42_dispatch.md R86 to
R92). -/
theorem commonFields_behind_two (h : 8 ≤ rest.length) (t : Nat) :
    commonFields (a' :: b' :: rest) t = (commonFields (a :: b :: rest) t).withRaw (a' :: b' :: rest) := by
  have hserial : serialOf (a' :: b' :: rest) = serialOf (a :: b :: rest) := by
    simp only [serialOf, List.length_cons]
    rw [byteAt_behind_two a' b' a b (by omega)]
  have hchecksum : checksumOf (a' :: b' :: rest) = checksumOf (a :: b :: rest) :=
    byteAt_behind_two a' b' a b (by simp only [List.length_cons]; omega)
  simp only [commonFields, hserial, hchecksum]
  rfl

end OtherMarker

/-- Settles O37: in a frame of 10 bytes or more only `raw` holds the start marker, and no payload decoder looks at
`raw`. -/
theorem markersTreatedAlike : Obligations.MarkersTreatedAlike := by
  intro c rest t hframe hlength
  have hstop := stopOk_behind_two 0x79 0x79 0x78 0x78 (rest := rest) (by omega)
  have hcandidate : isCandidate (0x79 :: 0x79 :: rest) = isCandidate (0x78 :: 0x78 :: rest) := rfl
  refine ⟨by rwa [isFrame, hcandidate, hstop], _, decodeFrame_eq .., ?_⟩
  rw [decodeFrame_eq, commonFields_behind_two 0x78 0x78 0x79 0x79 hlength, ← withRaw_payloadDecoder]
  rfl

/-! ## The registry and written-out words -/

/-- Exactly the codes of a named row have a name (30_encoding.md R50; 42_dispatch.md R90). -/
theorem registryName_eq_unknown_iff (code : Byte) :
    registryName code = .unknown ↔ code ∉ [(0x01 : Byte), 0x12, 0x13, 0x15, 0x16, 0x1A, 0xA0] := by
  have hnamed : ∀ code ∈ [(0x01 : Byte), 0x12, 0x13, 0x15, 0x16, 0x1A, 0xA0], registryName code ≠ .unknown := by
    decide
  refine ⟨fun hname hmem => hnamed code hmem hname, fun h => ?_⟩
  simp only [List.mem_cons, List.not_mem_nil, or_false, not_or] at h
  simp only [registryName, h, if_false]

/-- Settles O39: the seven names are looked up, every other code falls through to UNKNOWN. -/
theorem registryNames : Obligations.RegistryNames :=
  ⟨rfl, rfl, rfl, rfl, rfl, rfl, rfl, registryName_eq_unknown_iff, rfl⟩

/-- The CRC of AK-1 (95_test_vectors.md). -/
theorem ack1_crc : crc16 [0x05, 0x01, 0x00, 0x01] = (0xD9 : Byte) ++ (0xDC : Byte) := by
  simp [crc16, crcResult, crcRun, crcInit, crcByte, crcSteps, crcStep, crcPoly]

/-- Settles O60: each word is decoded; the acknowledgment's CRC bytes are those of AK-1, and one other CRC byte makes it
none. -/
theorem wordsOfTheSpec : Obligations.WordsOfTheSpec :=
  ⟨rfl, rfl, rfl, rfl, rfl, rfl, rfl, rfl, decode_ackOut ack1_crc,
    decode_ackOut_of_wrong_crc (by rw [ack1_crc]; decide)⟩

end Sys2Proof.Machine

/-!
The statements of 40_crc.md: the bit and byte steps (R60, R61), the message command (R62) and the streaming beats (R63),
and what follows from the bit step's being linear over exclusive-or and invertible (R65, R67, R68).
-/

namespace Sys2Proof.Machine

/-! ## The bit step -/

/-- R60 over the numbers: halve, and feed back if the value was odd. -/
theorem crcStep_toNat (c : BitVec 16) :
    (crcStep c).toNat = if c.toNat % 2 = 1 then (c.toNat / 2) ^^^ 0x8408 else c.toNat / 2 := by
  have hodd : c.getLsbD 0 = true ↔ c.toNat % 2 = 1 := by simp [BitVec.getLsbD]
  simp only [crcStep, hodd, apply_ite BitVec.toNat, BitVec.toNat_xor, BitVec.toNat_ushiftRight, Nat.shiftRight_one]
  rfl

theorem crcStep_of_getLsbD_zero {c : BitVec 16} (h : c.getLsbD 0 = false) : crcStep c = c >>> 1 :=
  if_neg (by rw [h]; decide)

/-- The bit step is linear over exclusive-or: the shift is, and the two feedbacks cancel when both bits are set. -/
theorem crcStep_xor : Function.Semiconj₂ crcStep (· ^^^ ·) (· ^^^ ·) := by
  intro x y
  have hcancel : (x >>> 1) ^^^ crcPoly ^^^ ((y >>> 1) ^^^ crcPoly) = (x >>> 1) ^^^ (y >>> 1) := by
    rw [BitVec.xor_comm (y >>> 1), BitVec.xor_assoc, ← BitVec.xor_assoc crcPoly, BitVec.xor_self, BitVec.zero_xor]
  simp only [crcStep, BitVec.getLsbD_xor, BitVec.ushiftRight_xor_distrib]
  cases x.getLsbD 0 <;> cases y.getLsbD 0 <;>
    simp only [Bool.xor_false, Bool.xor_true, Bool.not_false, Bool.not_true, Bool.false_eq_true, if_true, if_false]
  case false.true => rw [BitVec.xor_assoc]
  case true.false => rw [BitVec.xor_assoc, BitVec.xor_assoc, BitVec.xor_comm crcPoly]
  case true.true => exact hcancel.symm

/-- The feedback sets bit 15, which the shift leaves clear: bit 15 shows which bit was shifted out. -/
theorem getLsbD_crcStep_top (c : BitVec 16) : (crcStep c).getLsbD 15 = c.getLsbD 0 := by
  rw [crcStep]
  split
  case isTrue hodd => simp [hodd, crcPoly]
  case isFalse heven => simpa using heven

theorem eq_zero_of_crcStep_eq_zero {c : BitVec 16} (h : crcStep c = 0) : c = 0 := by
  have hzero : c.getLsbD 0 = false := by rw [← getLsbD_crcStep_top, h]; rfl
  rw [crcStep_of_getLsbD_zero hzero] at h
  refine BitVec.eq_of_getLsbD_eq fun i _ => ?_
  cases i with
  | zero => exact hzero
  | succ i => simpa [Nat.add_comm] using congrArg (BitVec.getLsbD · i) h

/-- An injection, since it is linear and only zero steps to zero. -/
theorem crcStep_injective : Function.Injective crcStep := by
  intro x y hxy
  have hxor : crcStep (x ^^^ y) = 0 := by rw [crcStep_xor.eq, hxy]; exact BitVec.xor_self
  exact BitVec.xor_eq_zero_iff.mp (eq_zero_of_crcStep_eq_zero hxor)

/-- While the low bits are clear the steps only shift. -/
theorem iterate_crcStep_of_low_clear {k : Nat} {c : BitVec 16} (h : ∀ i < k, c.getLsbD i = false) :
    crcStep^[k] c = c >>> k := by
  induction k generalizing c with
  | zero => simp
  | succ k ih =>
    rw [Function.iterate_succ_apply, crcStep_of_getLsbD_zero (h 0 k.succ_pos), ih, ← BitVec.shiftRight_add,
      Nat.add_comm 1 k]
    intro i hi
    rw [BitVec.getLsbD_ushiftRight]
    exact h _ (by omega)

/-- The taps. -/
theorem getLsbD_crcPoly (i : Nat) : crcPoly.getLsbD i = true ↔ i = 15 ∨ i = 10 ∨ i = 3 := by
  have hbelow : ∀ i < 16, crcPoly.getLsbD i = true ↔ i = 15 ∨ i = 10 ∨ i = 3 := by decide
  obtain hi | hi := Nat.lt_or_ge i 16
  · exact hbelow i hi
  · exact iff_of_false (by rw [BitVec.getLsbD_of_ge _ i hi]; decide) (by omega)

/-! ## The byte step -/

theorem crcSteps_eq_iterate (k : Nat) (c : BitVec 16) : crcSteps k c = crcStep^[k] c := by
  induction k generalizing c with
  | zero => rfl
  | succ k ih => exact ih (crcStep c)

/-- R61. -/
theorem crcByte_eq_iterate (c : BitVec 16) (b : Byte) : crcByte c b = crcStep^[8] (c ^^^ b.setWidth 16) :=
  crcSteps_eq_iterate 8 _

/-- `T[x]` of R65. -/
theorem crcByte_zero (x : Byte) : crcByte 0 x = crcStep^[8] (x.setWidth 16) :=
  (crcByte_eq_iterate 0 x).trans (congrArg _ BitVec.zero_xor)

theorem crcByte_bijective (b : Byte) : Function.Bijective fun c => crcByte c b := by
  refine Finite.injective_iff_bijective.mp fun c d h => ?_
  simp only [crcByte_eq_iterate] at h
  exact (BitVec.xor_left_inj _).mp (crcStep_injective.iterate 8 h)

theorem crcByte_injective (c : BitVec 16) : Function.Injective (crcByte c) := by
  intro b b' h
  simp only [crcByte_eq_iterate] at h
  have hwide : b.setWidth 16 = b'.setWidth 16 := (BitVec.xor_right_inj _).mp (crcStep_injective.iterate 8 h)
  simpa using congrArg (BitVec.setWidth 8) hwide

theorem getLsbD_byte_append (h l : Byte) (i : Nat) :
    (h ++ l : BitVec 16).getLsbD i = if i < 8 then l.getLsbD i else h.getLsbD (i - 8) :=
  BitVec.getLsbD_append ..

theorem append_ushiftRight_eight (h l : Byte) : (h ++ l : BitVec 16) >>> 8 = h.setWidth 16 := by
  refine BitVec.eq_of_getLsbD_eq fun i hi => ?_
  simp [getLsbD_byte_append, hi]

/-- Exclusive-or of a zero-extended byte meets the low byte alone. -/
theorem append_xor_setWidth (h l b : Byte) : (h ++ l : BitVec 16) ^^^ b.setWidth 16 = h ++ (l ^^^ b) := by
  refine BitVec.eq_of_getLsbD_eq fun i hi => ?_
  rw [BitVec.getLsbD_xor, getLsbD_byte_append, getLsbD_byte_append, BitVec.getLsbD_setWidth, BitVec.getLsbD_xor]
  split
  case isTrue hlow => simp [hi]
  case isFalse hhigh => simp [BitVec.getLsbD_of_ge b i (by omega)]

theorem append_eq_xor (h l : Byte) : (h ++ l : BitVec 16) = (h ++ (0 : Byte)) ^^^ l.setWidth 16 := by
  rw [append_xor_setWidth]
  exact congrArg (h ++ ·) BitVec.zero_xor.symm

/-- Eight steps bring a byte from the high half down to the low one. -/
theorem iterate_crcStep_high_byte (h : Byte) : crcStep^[8] (h ++ (0 : Byte)) = h.setWidth 16 := by
  have hlow : ∀ i < 8, (h ++ (0 : Byte) : BitVec 16).getLsbD i = false := fun i hi => by
    simp [getLsbD_byte_append, hi]
  rw [iterate_crcStep_of_low_clear hlow, append_ushiftRight_eight]

/-- The byte step on a register in two bytes, by linearity: the high one comes down, and the low one meets the data.
This is the table form (R65). -/
theorem crcByte_append (h l b : Byte) : crcByte (h ++ l) b = h.setWidth 16 ^^^ crcByte 0 (l ^^^ b) :=
  calc crcByte (h ++ l) b
      = crcStep^[8] ((h ++ (0 : Byte)) ^^^ (l ^^^ b).setWidth 16) := by
        rw [crcByte_eq_iterate, append_xor_setWidth, append_eq_xor]
    _ = h.setWidth 16 ^^^ crcByte 0 (l ^^^ b) := by
        rw [(crcStep_xor.iterate 8).eq, iterate_crcStep_high_byte, crcByte_zero]

/-- Two bytes enter like one 16-bit word with the first byte low: while the first is stepped through, the second only
comes down from the high half. -/
theorem crcByte_crcByte (c : BitVec 16) (lo hi : Byte) :
    crcByte (crcByte c lo) hi = crcStep^[16] (c ^^^ (hi ++ lo)) :=
  calc crcByte (crcByte c lo) hi
      = crcStep^[8] (crcStep^[8] (c ^^^ lo.setWidth 16) ^^^ crcStep^[8] (hi ++ (0 : Byte))) := by
        rw [crcByte_eq_iterate, crcByte_eq_iterate, iterate_crcStep_high_byte]
    _ = crcStep^[8] (crcStep^[8] (c ^^^ ((hi ++ (0 : Byte)) ^^^ lo.setWidth 16))) := by
        rw [← (crcStep_xor.iterate 8).eq, BitVec.xor_assoc, BitVec.xor_comm (lo.setWidth 16)]
    _ = crcStep^[16] (c ^^^ (hi ++ lo)) := by
        rw [← append_eq_xor, ← Function.iterate_add_apply]

/-! ## The bit-serial view -/

/-- With the bits of the byte that have not entered yet exclusive-ored onto the register, a step of the serial view is a
bit step (R68). -/
theorem crcSerialStep_xor (b : Byte) (c : BitVec 16) (j : Nat) :
    crcSerialStep b c j ^^^ (b >>> (j + 1)).setWidth 16 = crcStep (c ^^^ (b >>> j).setWidth 16) := by
  have hbit : (c ^^^ (b >>> j).setWidth 16).getLsbD 0 = (c.getLsbD 0 ^^ b.getLsbD j) := by
    rw [BitVec.getLsbD_xor, BitVec.getLsbD_setWidth, BitVec.getLsbD_ushiftRight]
    rfl
  have hshift : (b >>> (j + 1)).setWidth 16 = (b >>> j).setWidth 16 >>> 1 := by
    rw [BitVec.shiftRight_add, BitVec.setWidth_ushiftRight (by decide)]
  rw [crcSerialStep, crcStep, hbit, hshift, BitVec.ushiftRight_xor_distrib]
  split
  · rw [BitVec.xor_assoc, BitVec.xor_assoc, BitVec.xor_comm crcPoly]
  · rfl

/-- The invariant of the serial view: it differs from the bit steps by the bits that have not entered yet. -/
theorem foldl_crcSerialStep (b : Byte) (c : BitVec 16) (k : Nat) :
    (List.range k).foldl (crcSerialStep b) c ^^^ (b >>> k).setWidth 16 = crcStep^[k] (c ^^^ b.setWidth 16) := by
  induction k with
  | zero => simp
  | succ k ih =>
    rw [List.range_succ, List.foldl_append, Function.iterate_succ_apply', ← ih]
    exact crcSerialStep_xor ..

/-! ## Messages -/

theorem crcRun_append (c : BitVec 16) (d e : Bytes) : crcRun c (d ++ e) = crcRun (crcRun c d) e := List.foldl_append

/-- From different registers the same bytes lead to different ones. -/
theorem crcRun_injective (data : Bytes) : Function.Injective fun c => crcRun c data := by
  induction data with
  | nil => exact Function.injective_id
  | cons b rest ih => exact ih.comp (crcByte_bijective b).injective

theorem crcResult_injective : Function.Injective crcResult := fun _ _ => BitVec.not_inj.mp

/-- The residue: a message's own CRC, low byte first, brings the register to all ones before its last sixteen steps. -/
theorem crcRun_append_crc {data : Bytes} {lo hi : Byte} (h : crc16 data = hi ++ lo) :
    crcRun crcInit (data ++ [lo, hi]) = 0xF0B8 := by
  have hrun : crcRun crcInit data ^^^ (hi ++ lo) = 0xFFFF := by
    rw [← h, crc16, crcResult, ← BitVec.not_xor_right, BitVec.xor_self]
    rfl
  have hfirst : crcStep^[8] 0xFFFF = 0x0F87 := by decide
  have hsecond : crcStep^[8] 0x0F87 = 0xF0B8 := by decide
  calc crcRun crcInit (data ++ [lo, hi])
      = crcByte (crcByte (crcRun crcInit data) lo) hi := crcRun_append ..
    _ = crcStep^[16] 0xFFFF := by rw [crcByte_crcByte, hrun]
    _ = 0xF0B8 := by rw [Function.iterate_add_apply crcStep 8 8, hfirst, hsecond]

/-- Messages that differ in one byte: the byte step tells them apart, and the bytes behind keep them apart. -/
theorem crc16_ne_of_one_byte (pre post : Bytes) {x y : Byte} (h : x ≠ y) :
    crc16 (pre ++ x :: post) ≠ crc16 (pre ++ y :: post) := by
  intro heq
  have hrun := crcResult_injective heq
  rw [crcRun_append, crcRun_append] at hrun
  exact h (crcByte_injective _ (crcRun_injective post hrun))

/-! ## Streaming -/

/-- The state after a beat: the register, its message open, and the result it stands for (R63). -/
def State.afterBeat (s : State) (c : BitVec 16) : State :=
  ((s.withCrcr c).withCrcOpen true).withResult (.crc (crcResult c))

theorem exec_crcFirst (b : Byte) (s : State) : exec (.crcFirst b) s = .next (s.afterBeat (crcByte crcInit b)) := rfl

theorem exec_crcNext_of_open {s : State} (h : s.crcOpen = true) (b : Byte) :
    exec (.crcNext b) s = .next (s.afterBeat (crcByte s.crcr b)) :=
  if_pos h

theorem exec_crcNext_of_closed {s : State} (h : s.crcOpen = false) (b : Byte) :
    exec (.crcNext b) s = .next (s.withResult (.refused .noCrcMessage)) :=
  if_neg (by rw [h]; decide)

theorem execAll_cons_of_next {i : Instr} {s t : State} (h : exec i s = .next t) (rest : List Instr) :
    execAll (i :: rest) s = execAll rest t := by
  rw [execAll, h]

/-- The beats that follow run the register over their bytes. -/
theorem execAll_crcNext (s : State) (c : BitVec 16) (rest : Bytes) :
    execAll (rest.map .crcNext) (s.afterBeat c) = .next (s.afterBeat (crcRun c rest)) := by
  induction rest generalizing c with
  | nil => rfl
  | cons b rest ih =>
    rw [List.map_cons, execAll_cons_of_next (exec_crcNext_of_open rfl b)]
    exact ih (crcByte c b)

/-! ## The statements -/

/-- Settles O11: the bit step in arithmetic, and the byte step as its iterate; the worked example is computed. -/
theorem crcBitAndByteSteps : Obligations.CrcBitAndByteSteps :=
  ⟨fun c => ⟨crcStep_toNat c, (crcStep c).isLt⟩, crcByte_eq_iterate, by decide, by decide⟩

/-- Settles O12: decoder and instruction are the definitions' own; the two results are computed. -/
theorem crc16Command : Obligations.Crc16Command :=
  ⟨fun _ _ => ⟨rfl, rfl⟩, by decide, by decide⟩

/-- Settles O13: the beats by the open-message bit, which an accepted CRC_NEXT leaves set. -/
theorem crcStreamingBeats : Obligations.CrcStreamingBeats := by
  refine fun b s => ⟨exec_crcFirst b s, fun hopen => ?_, fun hclosed => exec_crcNext_of_closed hclosed b⟩
  have hkeep : (s.withCrcr (crcByte s.crcr b)).withCrcOpen true = s.withCrcr (crcByte s.crcr b) := by
    rw [← hopen]
    rfl
  rw [exec_crcNext_of_open hopen, State.afterBeat, hkeep]
  rfl

/-- Settles O14: the first beat starts the register the message command starts from, the others run it on, and each
result is the complement of the register. -/
theorem streamedCrcEqualsCrc16 : Obligations.StreamedCrcEqualsCrc16 := by
  intro b rest s
  refine ⟨s.afterBeat (crcRun crcInit (b :: rest)), ?_, rfl, rfl⟩
  rw [execAll_cons_of_next (exec_crcFirst b s)]
  exact execAll_crcNext s (crcByte crcInit b) rest

/-- Settles O15: by linearity, with the register split into its two bytes; the entries are computed. -/
theorem crcTableForm : Obligations.CrcTableForm := by
  refine ⟨fun c b => ?_, by decide, by decide, by decide⟩
  obtain ⟨h, l, rfl⟩ := exists_eq_byte_append c
  have hlow : (h ++ l : BitVec 16).truncate 8 = l := BitVec.setWidth_append_eq_right
  rw [crcByte_append, append_ushiftRight_eight, hlow]

/-- Settles O16: the values are computed; the residue is that of all ones; the byte step and the run over a message are
injective because the bit step is. -/
theorem crcResidueAndSeparation : Obligations.CrcResidueAndSeparation := by
  refine ⟨by decide, fun data lo hi hcrc => ?_, crcByte_bijective, crcByte_injective,
    fun pre post _ _ => crc16_ne_of_one_byte pre post⟩
  have hresidue := crcRun_append_crc hcrc
  exact ⟨hresidue, by rw [crc16, hresidue]; rfl⟩

/-- Settles O17: after eight steps of the serial view nothing of the byte is left outside the register. -/
theorem crcBitSerialView : Obligations.CrcBitSerialView := by
  refine ⟨fun c b => ?_, fun i => ?_⟩
  · have hserial := foldl_crcSerialStep b c 8
    have hnone : (b >>> 8).setWidth 16 = (0 : BitVec 16) := by rw [BitVec.ushiftRight_eq_zero (Nat.le_refl 8)]; rfl
    rw [hnone] at hserial
    rw [crcByte_eq_iterate, ← hserial]
    exact BitVec.xor_zero
  · exact getLsbD_crcPoly i

end Sys2Proof.Machine

/-!
The statements of 41_framer.md: the marker scan (R74), one `SUBMIT` case by case (R71 to R81), what the loop keeps (R82),
and streams of candidates back to back (R83, R84).
-/

namespace Sys2Proof.Machine

/-! ## The marker scan -/

theorem markerAt_zero_iff {b : Bytes} : MarkerAt b 0 ↔ markerAtHead b = true := by
  match b with
  | [] | [_] => simp [MarkerAt, markerAtHead]
  | x :: y :: rest =>
    simp only [MarkerAt, markerAtHead, isMarker, Bool.and_eq_true, Bool.or_eq_true, beq_iff_eq]
    constructor
    · rintro ⟨v, hv, hx, hy⟩
      cases hx
      cases hy
      exact ⟨rfl, hv⟩
    · rintro ⟨rfl, hx⟩
      exact ⟨x, hx, rfl, rfl⟩

theorem leastMarker_zero_iff {b : Bytes} : LeastMarker b 0 ↔ markerAtHead b = true := by
  simp [LeastMarker, markerAt_zero_iff]

/-- A least marker behind offset 0 is one of the bytes behind the first. -/
theorem leastMarker_succ_iff {a : Byte} {b : Bytes} {i : Nat} :
    LeastMarker (a :: b) (i + 1) ↔ ¬ markerAtHead (a :: b) = true ∧ LeastMarker b i := by
  rw [LeastMarker, Nat.forall_lt_succ_left, markerAt_zero_iff]
  exact and_left_comm

theorem findMarker_cons (a : Byte) (b : Bytes) : findMarker (a :: b) =
    if markerAtHead (a :: b) then some 0 else (findMarker b).map (· + 1) := by
  cases b <;> rfl

theorem findMarker_eq_some_iff {b : Bytes} {i : Nat} : findMarker b = some i ↔ LeastMarker b i := by
  induction b generalizing i with
  | nil => simp [findMarker, LeastMarker, MarkerAt]
  | cons a b ih =>
    rw [findMarker_cons]
    cases i with
    | zero => rw [leastMarker_zero_iff]; split <;> simp [*]
    | succ i => rw [leastMarker_succ_iff, ← ih]; split <;> simp [*]

theorem findMarker_eq_none_iff {b : Bytes} : findMarker b = none ↔ ∀ i, ¬ MarkerAt b i := by
  induction b with
  | nil => simp [findMarker, MarkerAt]
  | cons a b ih =>
    rw [findMarker_cons, ← Nat.and_forall_add_one, markerAt_zero_iff]
    split
    case isTrue hmarker => simp [hmarker]
    case isFalse hmarker =>
      rw [Option.map_eq_none_iff, ih]
      exact (and_iff_right hmarker).symm

/-- Settles O22: the scan looks at offset 0 and then behind the first byte, and so does the least offset. -/
theorem markerScanFindsFirst : Obligations.MarkerScanFindsFirst :=
  ⟨fun _ _ => findMarker_eq_some_iff, fun _ => findMarker_eq_none_iff⟩

/-! ## Lengths and stop markers -/

theorem framed_length_le {b : Bytes} (h : framed b = true) : b.length ≤ 259 := by
  have := candidateSize_le b
  obtain hshort | ⟨-, hsize⟩ := framed_iff.mp h <;> omega

/-- The stop-marker test looks at the last two bytes (30_encoding.md R46). -/
theorem stopOk_iff {f : Bytes} (h : 2 ≤ f.length) :
    stopOk f = true ↔ f.drop (f.length - 2) = [0x0D, 0x0A] := by
  have hlast : f.drop (f.length - 2) = [byteAt f (f.length - 2), byteAt f (f.length - 1)] := by
    rw [List.drop_eq_getElem_cons (by omega), List.drop_eq_getElem_cons (by omega), List.drop_eq_nil_of_le (by omega)]
    simp [byteAt, show f.length - 2 + 1 = f.length - 1 by omega, show f.length - 2 < f.length by omega,
      show f.length - 1 < f.length by omega]
  simp [hlast, stopOk]

theorem isFrame_iff {f : Bytes} : isFrame f = true ↔ isCandidate f = true ∧ stopOk f = true := by
  simp [isFrame]

/-! ## One iteration -/

section Turn

variable {c : Config} {f : Bytes} {l l' : Framing}

/-- A candidate with the stop marker costs a sample and yields what DECODE returns (41_framer.md R79, R80). -/
theorem takeCandidate_good (h : stopOk f = true) : takeCandidate c f l =
    { l with
      buf := l.buf.drop f.length
      draws := l.draws + 1
      out := l.out ++ (decodeFrame c f (timeSample c l.draws)).toList } := by
  rw [takeCandidate, judgeCandidate_good h]
  rfl

/-- A candidate without it costs an event (41_framer.md R79, R80). -/
theorem takeCandidate_bad (h : stopOk f = false) : takeCandidate c f l =
    { l with buf := l.buf.drop f.length, diag := l.diag ++ [.badStopDrop f.length] } := by
  rw [takeCandidate, judgeCandidate_bad h]
  rfl

theorem skipLeadIn_eq (i : Nat) (l : Framing) :
    skipLeadIn i l = { l with buf := l.buf.drop i, diag := l.diag ++ skipEvents i } := by
  unfold skipLeadIn skipEvents
  split <;> simp [Memory.dropPrefix]

/-- With a least marker at `i` the iteration is the one behind the lead-in (41_framer.md R76). -/
theorem turn_of_leastMarker {i : Nat} (h5 : 5 ≤ l.buf.length) (hmarker : LeastMarker l.buf i) :
    turn c l = turnAtMarker c (skipLeadIn i l) := by
  simp [turn, Nat.not_lt.mpr h5, findMarker_eq_some_iff.mpr hmarker]

/-- An incomplete candidate waits (41_framer.md R77, R78). -/
theorem turnAtMarker_incomplete (h : l.buf.length < 5 ∨ l.buf.length < candidateSize l.buf) :
    turnAtMarker c l = .stop l := by
  unfold turnAtMarker
  split
  case isTrue => rfl
  case isFalse h5 => exact if_pos (h.resolve_left h5)

theorem turnAtMarker_complete (h : candidateSize l.buf ≤ l.buf.length) :
    turnAtMarker c l = .again (takeCandidate c (l.buf.take (candidateSize l.buf)) l) := by
  have h5 := (candidateSize_pos l.buf).trans h
  simp [turnAtMarker, Nat.not_lt.mpr h, Nat.not_lt.mpr h5]

theorem turn_of_short (h : l.buf.length < 5) : turn c l = .stop l := if_pos h

/-- A buffer in the form of P2 waits for more (41_framer.md R82 P2). -/
theorem turn_of_framed (h : framed l.buf = true) : turn c l = .stop l := by
  obtain hshort | ⟨hmarker, hsize⟩ := framed_iff.mp h
  · exact turn_of_short hshort
  · by_cases h5 : l.buf.length < 5
    · exact turn_of_short h5
    · rw [turn_of_leastMarker (Nat.not_lt.mp h5) (leastMarker_zero_iff.mpr hmarker)]
      exact turnAtMarker_incomplete (.inr hsize)

theorem runFramer_of_stop (h : turn c l = .stop l') : runFramer c l = l' := by
  rw [runFramer_unroll, h]

theorem runFramer_of_again (h : turn c l = .again l') : runFramer c l = runFramer c l' := by
  rw [runFramer_unroll, h]

end Turn

/-! ## One SUBMIT, case by case -/

section Submit

variable {chunk : Bytes} {s : State}

theorem within_iff {bound : Option Nat} {n : Nat} : within bound n = true ↔ ∀ m, bound = some m → n ≤ m := by
  cases bound <;> simp [within]

theorem chunkFits_iff : chunkFits s chunk = true ↔
    (∀ cap, s.cfg.bufCap = some cap → s.buf.length + chunk.length ≤ cap) ∧
    (∀ m, s.cfg.maxChunk = some m → chunk.length ≤ m) := by
  simp [chunkFits, within_iff]

/-- What fits, fits as well in a state with the same parameters if it is no longer and neither is the sum. -/
theorem chunkFits_of_length_le {s' : State} {chunk' : Bytes} (h : chunkFits s chunk = true)
    (hsum : s'.buf.length + chunk'.length ≤ s.buf.length + chunk.length) (hlength : chunk'.length ≤ chunk.length)
    (hcfg : s'.cfg = s.cfg) : chunkFits s' chunk' = true := by
  rw [chunkFits, hcfg]
  obtain ⟨hcap, hmax⟩ := Bool.and_eq_true_iff.mp h
  exact Bool.and_eq_true_iff.mpr ⟨within_mono hcap hsum, within_mono hmax hlength⟩

theorem exec_submit_of_fits (h : chunkFits s chunk = true) : exec (.submit chunk) s =
    finishFraming s (runFramer s.cfg (Framing.start s (s.buf ++ chunk))) :=
  if_pos h

theorem exec_submit_of_not_fits (h : ¬ chunkFits s chunk = true) :
    exec (.submit chunk) s = .next (s.withResult (.refused .overflow)) :=
  if_neg h

/-- A `SUBMIT` whose first iteration stops writes that iteration's values back. -/
theorem exec_submit_of_stop {l : Framing} (hfits : chunkFits s chunk = true)
    (hturn : turn s.cfg (Framing.start s (s.buf ++ chunk)) = .stop l) :
    exec (.submit chunk) s = finishFraming s l := by
  rw [exec_submit_of_fits hfits, runFramer_of_stop hturn]

/-- Settles O23: the capacity test is the two bounds; a framed buffer holds at most 259 bytes. -/
theorem submitCapacity : Obligations.SubmitCapacity := by
  refine fun chunk s => ⟨fun hover => exec_submit_of_not_fits fun hfits => ?_, fun hframed hcap hmax => ?_⟩
  · obtain ⟨hcap, hmax⟩ := chunkFits_iff.mp hfits
    obtain ⟨cap, hbound, hlt⟩ | ⟨m, hbound, hlt⟩ := hover
    · exact absurd (hcap cap hbound) (Nat.not_le.mpr hlt)
    · exact absurd (hmax m hbound) (Nat.not_le.mpr hlt)
  · have hlength := framed_length_le hframed
    have hfits : chunkFits s chunk = true :=
      chunkFits_iff.mpr ⟨fun cap hbound => by have := hcap cap hbound; omega, hmax⟩
    exact ⟨_, _, _, exec_submit_of_fits hfits, rfl⟩

/-- Settles O25: the first iteration stops on a short buffer. -/
theorem submitKeepsShortResidue : Obligations.SubmitKeepsShortResidue :=
  fun _ _ hfits hshort => exec_submit_of_stop hfits (turn_of_short hshort)

/-- Settles O26: the first iteration scans in vain and flushes. -/
theorem submitFlushesWithoutMarker : Obligations.SubmitFlushesWithoutMarker := by
  intro chunk s hfits h5 hnone
  have hturn : turn s.cfg (Framing.start s (s.buf ++ chunk)) = .stop { Framing.start s [] with
      diag := [.noMarkerFlush (s.buf ++ chunk).length] } := by
    simp only [turn, Framing.start, findMarker_eq_none_iff.mpr hnone, Nat.not_lt.mpr h5, if_false, List.nil_append]
  exact exec_submit_of_stop hfits hturn

/-- Settles O27: the first iteration drops the lead-in and stops at the incomplete candidate. -/
theorem submitKeepsIncompleteCandidate : Obligations.SubmitKeepsIncompleteCandidate := by
  rintro chunk _ i s hfits h5 hmarker rfl hwaits
  have hturn : turn s.cfg (Framing.start s (s.buf ++ chunk)) =
      .stop (skipLeadIn i (Framing.start s (s.buf ++ chunk))) := by
    rw [turn_of_leastMarker h5 hmarker]
    exact turnAtMarker_incomplete hwaits
  rw [exec_submit_of_stop hfits hturn, skipLeadIn_eq]
  rfl

/-- A `SUBMIT` whose first iteration goes round again is a `SUBMIT` of nothing from where that iteration ends, behind
what it noted. -/
theorem exec_submit_of_again {m : Framing} {u : State} {rs : List Record} {ds : List Diag}
    (hfits : chunkFits s chunk = true) (hturn : turn s.cfg (Framing.start s (s.buf ++ chunk)) = .again m)
    (hresult : u.result = .ok rs ds)
    (hrest : exec (.submit []) ((s.withBuf m.buf).withDraws m.draws) = .next u) :
    exec (.submit chunk) s = .next (u.withResult (.ok (m.out ++ rs) (m.diag ++ ds))) := by
  rw [exec_submit_of_fits hfits, runFramer_of_again hturn]
  exact finishFraming_then_submit_nil rfl rfl ((exec_withResult _ _ (.ok m.out m.diag)).trans hrest) hresult

/-- Settles O28: the first iteration takes the candidate, by its stop marker, and the loop goes on behind it. -/
theorem submitTakesCompleteCandidate : Obligations.SubmitTakesCompleteCandidate := by
  rintro chunk _ f i s u rs ds hfits h5 hmarker rfl h5' hsize hf hresult
  have hlength : f.length = nth ((s.buf ++ chunk).drop i) 2 + 5 := hf ▸ List.length_take_of_le hsize
  have hturn : turn s.cfg (Framing.start s (s.buf ++ chunk)) =
      .again (takeCandidate s.cfg f (skipLeadIn i (Framing.start s (s.buf ++ chunk)))) := by
    rw [turn_of_leastMarker h5 hmarker, hf]
    exact turnAtMarker_complete hsize
  rw [skipLeadIn_eq] at hturn
  rw [Ne, ← stopOk_iff (by omega), Bool.not_eq_true]
  constructor
  · intro hstop hrest
    rw [takeCandidate_good hstop] at hturn
    exact exec_submit_of_again hfits hturn hresult hrest
  · intro hstop hrest
    rw [takeCandidate_bad hstop] at hturn
    simpa [Framing.start] using exec_submit_of_again hfits hturn hresult hrest

/-- Settles O29: the loop ends with the buffer in the form of P2, which bounds its length. -/
theorem submitPostState : Obligations.SubmitPostState := by
  intro chunk s t hfits h
  obtain rfl := complete_eq_next.mp ((exec_submit_of_fits hfits).symm.trans h)
  obtain ⟨hframed, -⟩ := runFramer_tail s.cfg (Framing.start s (s.buf ++ chunk))
  refine ⟨?_, framed_length_le hframed⟩
  obtain hshort | ⟨hmarker, hsize⟩ := framed_iff.mp hframed
  · exact .inl hshort
  · exact or_iff_not_imp_left.mpr fun h5 => ⟨markerAt_zero_iff.mpr hmarker, Nat.not_lt.mp h5, hsize⟩

/-- Settles O30: nothing always fits a buffer within its capacity, and a framed buffer waits. -/
theorem emptyChunkChangesNothing : Obligations.EmptyChunkChangesNothing := by
  rintro s ⟨hframed, hcap⟩
  have hfits : chunkFits s [] = true := chunkFits_iff.mpr ⟨within_iff.mp hcap, fun _ _ => Nat.zero_le _⟩
  rw [exec_submit_of_stop hfits (turn_of_framed (by simpa [Framing.start] using hframed)), List.append_nil]
  rfl

end Submit

/-! ## One candidate as an operation of its own -/

/-- Settles O35: an envelope is the operation of its candidate, whose two outcomes are told apart by the stop marker. -/
theorem frameEnvelopes : Obligations.FrameEnvelopes := by
  intro i f s hi hwf
  have hcandidate : isCandidate f = true := by
    obtain rfl | rfl := hi
    · exact (wellFormed_frameStd_iff.mp hwf).1
    · exact (wellFormed_frameExt_iff.mp hwf).1
  obtain ⟨h5, -⟩ := isCandidate_iff.mp hcandidate
  rw [Ne, ← stopOk_iff (by omega), Bool.not_eq_true, exec_envelope hi, candidateOp]
  constructor
  · intro hstop
    rw [takeCandidate_good hstop]
    exact ⟨_, decodeFrame_eq .., rfl⟩
  · intro hstop
    rw [takeCandidate_bad hstop]
    rfl

/-! ## What the loop reports -/

/-- A record is DECODE of the frame and the sample it carries (42_dispatch.md R86, R92). -/
theorem decodeFrame_eq_some {c : Config} {f : Bytes} {t : Nat} {r : Record} (h : decodeFrame c f t = some r) :
    r.raw = f ∧ r.captureTime = t := by
  rw [decodeFrame_eq] at h
  cases h
  have hcommon := payloadDecoder_common c (protocolOf f) (payloadOf f) (commonFields f t)
  exact ⟨hcommon.raw, hcommon.captureTime⟩

/-- A record of a whole frame among the bytes received, decoded with one of the samples from `first` up to `next`. -/
def DecodedAmong (c : Config) (received : Bytes) (first next : Nat) (r : Record) : Prop :=
  isFrame r.raw = true ∧ r.raw <:+: received ∧
    ∃ k, first ≤ k ∧ k < next ∧ decodeFrame c r.raw (timeSample c k) = some r

/-- What holds at the top of the loop over the bytes received: what is left is a tail of them, and every sample drawn
since `first` has given one record. -/
structure Reported (c : Config) (received : Bytes) (first : Nat) (l : Framing) : Prop where
  tail : l.buf <:+ received
  draws : l.draws = first + l.out.length
  decoded : ∀ r ∈ l.out, DecodedAmong c received first l.draws r

section Reported

variable {c : Config} {received f : Bytes} {first : Nat} {l l' : Framing}

theorem DecodedAmong.mono {n m : Nat} {r : Record} (h : DecodedAmong c received first n r) (hnm : n ≤ m) :
    DecodedAmong c received first m r := by
  obtain ⟨hframe, hinfix, k, hfirst, hk, hdecode⟩ := h
  exact ⟨hframe, hinfix, k, hfirst, hk.trans_le hnm, hdecode⟩

theorem Reported.start (s : State) (b : Bytes) : Reported s.cfg b s.draws (Framing.start s b) :=
  ⟨List.suffix_refl b, rfl, fun _ hr => absurd hr List.not_mem_nil⟩

/-- An iteration that stops draws and reports nothing (41_framer.md R73, R75, R77, R78). -/
theorem turn_stop_reports_nothing (h : turn c l = .stop l') : l'.draws = l.draws ∧ l'.out = l.out := by
  obtain ⟨-, e⟩ | ⟨-, -, e⟩ | ⟨i, -, -, -, e⟩ | ⟨_, -, -, -, -, e⟩ := turn_cases c l <;> rw [e] at h <;> cases h <;>
    exact ⟨rfl, rfl⟩

/-- An iteration that goes round again takes a candidate that lies in the buffer (41_framer.md R76 to R80). -/
theorem turn_again_takes (h : turn c l = .again l') :
    ∃ i f, isCandidate f = true ∧ f <:+: l.buf ∧ l' = takeCandidate c f (skipLeadIn i l) := by
  obtain ⟨-, e⟩ | ⟨-, -, e⟩ | ⟨_, -, -, -, e⟩ | ⟨i, -, hfind, -, hsize, e⟩ := turn_cases c l <;> rw [e] at h <;> cases h
  exact ⟨i, _, isCandidate_take (findMarker_markerAtHead hfind) hsize,
    (List.take_prefix _ _).isInfix.trans (List.drop_suffix i l.buf).isInfix, rfl⟩

theorem Reported.turn_stop (hl : Reported c received first l) (h : turn c l = .stop l') :
    Reported c received first l' := by
  obtain ⟨hdraws, hout⟩ := turn_stop_reports_nothing h
  refine ⟨(turn_stop_tail h).2.trans hl.tail, ?_, ?_⟩ <;> rw [hdraws, hout]
  · exact hl.draws
  · exact hl.decoded

/-- The record of a frame that is decoded with sample `k`. -/
theorem decodedAmong_of_decodeFrame {k : Nat} {r : Record} (hframe : isFrame f = true) (hinfix : f <:+: received)
    (hk : first ≤ k) (hdecode : decodeFrame c f (timeSample c k) = some r) :
    DecodedAmong c received first (k + 1) r := by
  obtain ⟨rfl, -⟩ := decodeFrame_eq_some hdecode
  exact ⟨hframe, hinfix, k, hk, Nat.lt_succ_self k, hdecode⟩

theorem Reported.turn_again (hl : Reported c received first l) (h : turn c l = .again l') :
    Reported c received first l' := by
  have htail := (turn_again_tail h).trans hl.tail
  obtain ⟨i, f, hcandidate, hinfix, rfl⟩ := turn_again_takes h
  cases hstop : stopOk f
  case false =>
    rw [takeCandidate_bad hstop] at htail ⊢
    exact ⟨htail, hl.draws, hl.decoded⟩
  case true =>
    rw [takeCandidate_good hstop] at htail ⊢
    refine ⟨htail, ?_, fun r hr => ?_⟩
    · change l.draws + 1 = first + (l.out ++ [_]).length
      rw [hl.draws, List.length_append]
      rfl
    · obtain hold | hnew := List.mem_append.mp hr
      · exact (hl.decoded r hold).mono (Nat.le_succ _)
      · exact decodedAmong_of_decodeFrame (isFrame_iff.mpr ⟨hcandidate, hstop⟩)
          (hinfix.trans hl.tail.isInfix) (hl.draws ▸ Nat.le_add_right ..) (Option.mem_toList.mp hnew)

/-- The whole loop reports frames among its bytes (41_framer.md R79, R81). -/
theorem runFramer_reported (s : State) (b : Bytes) :
    Reported s.cfg b s.draws (runFramer s.cfg (Framing.start s b)) := by
  obtain ⟨m, hm, hstop⟩ := frameLoop_induct (Reported s.cfg b s.draws) (fun _ _ hl h => hl.turn_again h) _ _
    (Reported.start s b) (Nat.lt_succ_self _)
  exact hm.turn_stop hstop

end Reported

/-- Settles O24: the loop leaves a tail of its bytes and draws one sample a record. -/
theorem submitCompletesAndFrames : Obligations.SubmitCompletesAndFrames := by
  intro chunk s hfits
  have hreported := runFramer_reported s (s.buf ++ chunk)
  rw [exec_submit_of_fits hfits]
  generalize runFramer s.cfg (Framing.start s (s.buf ++ chunk)) = l at hreported ⊢
  refine ⟨l.buf, l.out, l.diag, ?_, hreported.tail.length_le, fun a => ?_⟩
  · rw [← hreported.draws]
    rfl
  · conv_lhs => rw [List.suffix_iff_eq_drop.mp hreported.tail]
    exact Memory.byte_dropPrefix ..

/-- Settles O32: every record the loop reports comes from a candidate it took, with the sample it drew for it. -/
theorem recordsAreWholeFrames : Obligations.RecordsAreWholeFrames := by
  intro chunk s t rs ds h hresult r hr
  obtain ⟨-, rfl⟩ | ⟨-, l, rfl, rfl⟩ := execSubmit_eq_next h
  · cases hresult
  · cases hresult
    obtain ⟨hframe, hinfix, k, hfirst, hk, hdecode⟩ := (runFramer_reported s (s.buf ++ chunk)).decoded r hr
    obtain ⟨-, htime⟩ := decodeFrame_eq_some hdecode
    exact ⟨hframe, hinfix, htime ▸ hdecode, k, hfirst, hk, htime⟩

/-! ## Independence of the samples -/

/-- A decoder that neither reads nor writes `captureTime`: clearing it before or after comes to the same. -/
def TimeBlind (pd : Record → Record) : Prop := ∀ r, untimed (pd r) = pd (untimed r)

section TimeBlind

variable (c : Config) (p : Bytes)

theorem TimeBlind.ite {q : Prop} [Decidable q] {pd pd' : Record → Record} (h : TimeBlind pd) (h' : TimeBlind pd') :
    TimeBlind fun r => if q then pd r else pd' r := by
  intro r
  by_cases hq : q
  · simpa only [hq, if_true] using h r
  · simpa only [hq, if_false] using h' r

/-- Assigning fields in front of a decoder. -/
theorem TimeBlind.behind {pd assign : Record → Record} (h : TimeBlind pd) (ha : TimeBlind assign) :
    TimeBlind fun r => pd (assign r) :=
  fun r => (h (assign r)).trans (congrArg pd (ha r))

theorem timeBlind_leftOver (off : Nat) : TimeBlind (leftOver p off) := .ite (fun _ => rfl) (fun _ => rfl)

theorem timeBlind_gpsCell : TimeBlind (gpsCell p) :=
  .ite (.behind (timeBlind_leftOver p 25) fun _ => rfl) (timeBlind_leftOver p 17)

theorem timeBlind_gpsStatusWord : TimeBlind (gpsStatusWord c p) :=
  .ite (.behind (timeBlind_gpsCell p) fun _ => rfl) (timeBlind_leftOver p 15)

theorem timeBlind_gpsSpeed : TimeBlind (gpsSpeed c p) :=
  .ite (.behind (timeBlind_gpsStatusWord c p) fun _ => rfl) (timeBlind_leftOver p 14)

theorem timeBlind_gpsLongitude : TimeBlind (gpsLongitude c p) :=
  .ite (.behind (timeBlind_gpsSpeed c p) fun _ => rfl) (timeBlind_leftOver p 10)

theorem timeBlind_pdGpsLbs : TimeBlind (pdGpsLbs c p) :=
  .ite (fun _ => rfl) (.behind (timeBlind_gpsLongitude c p) fun _ => rfl)

theorem timeBlind_pdAlarm : TimeBlind (pdAlarm c p) :=
  .ite (fun _ => rfl) (.behind (timeBlind_pdGpsLbs c (p.drop 1)) fun _ => rfl)

theorem timeBlind_a0Speed : TimeBlind (a0Speed c p) :=
  .ite (fun _ => rfl) (.behind (pd := a0StatusWord c p) (.ite (fun _ => rfl) fun _ => rfl) fun _ => rfl)

theorem timeBlind_a0Latitude : TimeBlind (a0Latitude c p) :=
  .ite (fun _ => rfl) (.behind (pd := a0Longitude c p)
    (.ite (fun _ => rfl) (.behind (timeBlind_a0Speed c p) fun _ => rfl)) fun _ => rfl)

theorem timeBlind_pdGpsLbsA0 : TimeBlind (pdGpsLbsA0 c p) :=
  .ite (fun _ => rfl) (.behind (timeBlind_a0Latitude c p) fun _ => rfl)

/-- No payload decoder of the registry looks at the capture time (43_payload_decoders.md R97). -/
theorem timeBlind_payloadDecoder (code : Byte) : TimeBlind (payloadDecoder c code p) :=
  .ite (.ite (fun _ => rfl) fun _ => rfl) <|
  .ite (timeBlind_pdGpsLbs c p) <|
  .ite (.ite (fun _ => rfl) fun _ => rfl) <|
  .ite (timeBlind_pdAlarm c p) <|
  .ite (timeBlind_pdGpsLbsA0 c p) fun _ => rfl

end TimeBlind

/-- Two decodes of one frame differ in the capture time alone (42_dispatch.md R92). -/
theorem decodeFrame_untimed (c : Config) (f : Bytes) (t t' : Nat) :
    (decodeFrame c f t).toList.map untimed = (decodeFrame c f t').toList.map untimed := by
  simp only [decodeFrame_eq, Option.toList_some, List.map_cons, List.map_nil, timeBlind_payloadDecoder c _ _ _]
  rfl

/-- Two loops' working values agree but for the samples drawn and the capture times (41_framer.md R82 P5). -/
structure SameButTimes (l l' : Framing) : Prop where
  buf : l.buf = l'.buf
  diag : l.diag = l'.diag
  out : l.out.map untimed = l'.out.map untimed

/-- The same for the outcomes of one iteration. -/
inductive Turn.SameButTimes : Turn → Turn → Prop
  | stop {l l' : Framing} (h : Machine.SameButTimes l l') : SameButTimes (.stop l) (.stop l')
  | again {l l' : Framing} (h : Machine.SameButTimes l l') : SameButTimes (.again l) (.again l')

section SameButTimes

variable {c : Config} {l l' : Framing}

theorem SameButTimes.takeCandidate (h : SameButTimes l l') (f : Bytes) :
    SameButTimes (takeCandidate c f l) (takeCandidate c f l') := by
  obtain ⟨hbuf, hdiag, hout⟩ := h
  cases hstop : stopOk f
  · rw [takeCandidate_bad hstop, takeCandidate_bad hstop]
    exact ⟨by rw [hbuf], by rw [hdiag], hout⟩
  · rw [takeCandidate_good hstop, takeCandidate_good hstop]
    refine ⟨by rw [hbuf], hdiag, ?_⟩
    rw [List.map_append, List.map_append, hout, decodeFrame_untimed]

theorem SameButTimes.skipLeadIn (h : SameButTimes l l') (i : Nat) :
    SameButTimes (skipLeadIn i l) (skipLeadIn i l') := by
  obtain ⟨hbuf, hdiag, hout⟩ := h
  rw [skipLeadIn_eq, skipLeadIn_eq]
  exact ⟨by rw [hbuf], by rw [hdiag], hout⟩

theorem SameButTimes.turnAtMarker (h : SameButTimes l l') : (turnAtMarker c l).SameButTimes (turnAtMarker c l') := by
  unfold Machine.turnAtMarker
  rw [← h.buf]
  split
  · exact .stop h
  · split
    · exact .stop h
    · exact .again (h.takeCandidate _)

theorem SameButTimes.turn (h : SameButTimes l l') : (turn c l).SameButTimes (turn c l') := by
  unfold Machine.turn
  rw [← h.buf]
  split
  · exact .stop h
  · split
    · exact .stop ⟨rfl, by rw [h.diag], h.out⟩
    · exact (h.skipLeadIn _).turnAtMarker

theorem SameButTimes.frameLoop (h : SameButTimes l l') (k : Nat) :
    SameButTimes (frameLoop c k l) (frameLoop c k l') := by
  induction k generalizing l l' with
  | zero => exact h
  | succ k ih =>
    have hturn := h.turn (c := c)
    unfold Machine.frameLoop
    generalize Machine.turn c l = t, Machine.turn c l' = t' at hturn
    cases hturn with
    | stop hstop => exact hstop
    | again hagain => exact ih hagain

theorem SameButTimes.runFramer (h : SameButTimes l l') : SameButTimes (runFramer c l) (runFramer c l') := by
  unfold Machine.runFramer
  rw [← h.buf]
  exact h.frameLoop _

end SameButTimes

/-- Settles O31: from the same buffer and parameters both are refused, or both loops run in step, apart from the
samples. -/
theorem submitIndependentOfSamples : Obligations.SubmitIndependentOfSamples := by
  intro chunk s s' t t' hbuf hcfg h h'
  have hfits : chunkFits s' chunk = chunkFits s chunk := by simp only [chunkFits, hbuf, hcfg]
  obtain ⟨hf, rfl⟩ | ⟨hf, l, rfl, rfl⟩ := execSubmit_eq_next h <;>
    obtain ⟨hf', rfl⟩ | ⟨hf', l', rfl, rfl⟩ := execSubmit_eq_next h'
  · exact ⟨hbuf, .inl ⟨_, rfl, rfl⟩⟩
  · simp [hf, hf'] at hfits
  · simp [hf, hf'] at hfits
  · have hstart : SameButTimes (Framing.start s (s.buf ++ chunk)) (Framing.start s' (s'.buf ++ chunk)) :=
      ⟨by rw [hbuf]; rfl, rfl, rfl⟩
    obtain ⟨hbuf', hdiag, hout⟩ := hstart.runFramer (c := s.cfg)
    rw [← hcfg]
    exact ⟨hbuf', .inr ⟨_, _, _, rfl, by rw [hdiag]; rfl, hout⟩⟩

/-! ## Streams of candidates -/

section Streams

variable {c : Config} {f rest : Bytes} {fs gs : List Bytes}

/-- With a candidate in front the iteration takes exactly it. -/
theorem turn_of_candidate_append {l : Framing} (h : isCandidate f = true) (hbuf : l.buf = f ++ rest) :
    turn c l = .again (takeCandidate c f l) := by
  obtain ⟨h5, hmarker, hlength⟩ := isCandidate_iff.mp h
  have htake : l.buf.take f.length = f := by rw [hbuf, List.take_left]
  have hsize : candidateSize l.buf = f.length := by
    rw [hlength, candidateSize, candidateSize, ← byteAt_take (by omega : 2 < f.length) l.buf, htake]
  have hle : f.length ≤ l.buf.length := by rw [hbuf, List.length_append]; omega
  have hturn := turn_of_candidate_at_head c (l := l)
    (by rw [← markerAtHead_take (by omega : 2 ≤ f.length), htake, hmarker]) (by omega) (by omega)
  rwa [hsize, htake] at hturn

/-- The working values behind a stream of candidates (41_framer.md R84 d to f). -/
def Framing.afterStream (c : Config) (fs : List Bytes) (rest : Bytes) (l : Framing) : Framing where
  buf := rest
  draws := l.draws + fs.countP stopOk
  out := l.out ++ streamRecords c l.draws fs
  diag := l.diag ++ streamEvents fs

/-- The loop takes the candidates of a stream one after another. -/
theorem runFramer_stream (h : ∀ f ∈ fs, isCandidate f = true) {l : Framing} (hbuf : l.buf = fs.flatten ++ rest) :
    runFramer c l = runFramer c (l.afterStream c fs rest) := by
  induction fs generalizing l with
  | nil => simp [Framing.afterStream, streamRecords, streamEvents, show rest = l.buf from hbuf.symm]
  | cons f fs ih =>
    obtain ⟨hf, hfs⟩ := List.forall_mem_cons.mp h
    rw [List.flatten_cons, List.append_assoc] at hbuf
    rw [runFramer_of_again (turn_of_candidate_append hf hbuf), ih hfs (by rw [takeCandidate_buf, hbuf, List.drop_left])]
    cases hstop : stopOk f
    · simp [takeCandidate_bad hstop, Framing.afterStream, streamRecords, streamEvents, hstop]
    · simp [takeCandidate_good hstop, Framing.afterStream, streamRecords, streamEvents, hstop, Nat.add_assoc,
        Nat.add_comm]

/-- The state after a `SUBMIT` that ends a stream of candidates and leaves `rest` in the buffer. -/
def State.afterStream (s : State) (fs : List Bytes) (rest : Bytes) : State :=
  ((s.withBuf rest).withDraws (s.draws + fs.countP stopOk)).withResult
    (.ok (streamRecords s.cfg s.draws fs) (streamEvents fs))

/-- A `SUBMIT` that ends a stream of candidates, with a framed rest behind them, answers for all of them and keeps the
rest. -/
theorem exec_submit_stream {chunk : Bytes} {s : State} (hfits : chunkFits s chunk = true)
    (h : ∀ f ∈ fs, isCandidate f = true) (hbuf : s.buf ++ chunk = fs.flatten ++ rest) (hrest : framed rest = true) :
    exec (.submit chunk) s = .next (s.afterStream fs rest) := by
  rw [exec_submit_of_fits hfits, runFramer_stream h (l := Framing.start s (s.buf ++ chunk)) hbuf,
    runFramer_of_stop (turn_of_framed hrest)]
  rfl

/-- From an empty buffer, with nothing behind the candidates. -/
theorem exec_submit_whole_stream {s : State} (hempty : s.buf = []) (h : ∀ f ∈ fs, isCandidate f = true)
    (hfits : chunkFits s fs.flatten = true) : exec (.submit fs.flatten) s = .next (s.afterStream fs []) :=
  exec_submit_stream hfits h (by rw [hempty, List.append_nil]; rfl) framed_nil

/-- Settles O33: the loop takes the candidates one by one and then stops on an empty buffer. -/
theorem candidatesInOrder : Obligations.CandidatesInOrder := by
  intro fs s hempty h hfits
  rw [exec_submit_whole_stream hempty h hfits, State.afterStream, ← hempty, State.withBuf_self]

theorem streamRecords_append (k : Nat) : streamRecords c k (fs ++ gs) =
    streamRecords c k fs ++ streamRecords c (k + fs.countP stopOk) gs := by
  induction fs generalizing k with
  | nil => rfl
  | cons f fs ih =>
    cases hstop : stopOk f
    · simp [streamRecords, hstop, ih]
    · simp [streamRecords, hstop, ih, Nat.add_assoc, Nat.add_comm]

theorem streamEvents_append : streamEvents (fs ++ gs) = streamEvents fs ++ streamEvents gs := by
  simp [streamEvents]

/-- The front of a candidate waits: too short, or behind its marker fewer bytes than its length byte asks for
(41_framer.md R77, R78). -/
theorem framed_take_of_isCandidate (h : isCandidate f = true) {k : Nat} (hk : k < f.length) :
    framed (f.take k) = true := by
  obtain ⟨-, hmarker, hlength⟩ := isCandidate_iff.mp h
  have htake : (f.take k).length = k := List.length_take_of_le hk.le
  by_cases h5 : k < 5
  · exact framed_iff.mpr (.inl (htake.symm ▸ h5))
  · refine framed_iff.mpr (.inr ⟨by rwa [markerAtHead_take (by omega)], ?_⟩)
    rwa [htake, candidateSize, byteAt_take (by omega), ← candidateSize, ← hlength]

/-- A split point of a stream lies behind some of its candidates and inside the next one, if anywhere. -/
theorem exists_candidates_before (h : ∀ f ∈ fs, isCandidate f = true) (k : Nat) : ∃ gs hs p, fs = gs ++ hs ∧
    fs.flatten.take k = gs.flatten ++ p ∧ framed p = true := by
  induction fs generalizing k with
  | nil => exact ⟨[], [], [], rfl, List.take_nil, framed_nil⟩
  | cons f fs ih =>
    obtain ⟨hf, hfs⟩ := List.forall_mem_cons.mp h
    by_cases hk : k < f.length
    · refine ⟨[], f :: fs, f.take k, rfl, ?_, framed_take_of_isCandidate hf hk⟩
      exact List.take_append_of_le_length hk.le
    · obtain ⟨j, rfl⟩ := Nat.exists_eq_add_of_le (Nat.not_lt.mp hk)
      obtain ⟨gs, hs, p, rfl, htake, hp⟩ := ih hfs j
      refine ⟨f :: gs, hs, p, rfl, ?_, hp⟩
      rw [List.flatten_cons, List.take_length_add_append, htake, List.flatten_cons, List.append_assoc]

/-- Two streams submitted one after the other leave the state that both in one `SUBMIT` leave, its result apart. -/
theorem State.afterStream_afterStream (s : State) (p : Bytes) :
    ((s.afterStream gs p).afterStream fs rest).withResult (s.afterStream (gs ++ fs) rest).result =
      s.afterStream (gs ++ fs) rest := by
  simp only [State.afterStream, List.countP_append, ← Nat.add_assoc]
  rfl

/-- Settles O34: the first part is the stream of the candidates before the split point, with the front of the next one
waiting behind it; that front and the second part are the stream of the others. -/
theorem splitPointInvisible : Obligations.SplitPointInvisible := by
  intro fs k s w hempty h hfits hw
  rw [exec_submit_whole_stream hempty h hfits] at hw
  cases hw
  obtain ⟨gs, hs, p, rfl, htake, hp⟩ := exists_candidates_before h k
  obtain ⟨hgs, hhs⟩ := List.forall_mem_append.mp h
  have hdrop : p ++ (gs ++ hs).flatten.drop k = hs.flatten := by
    apply List.append_cancel_left (as := gs.flatten)
    rw [← List.append_assoc, ← htake, List.take_append_drop, List.flatten_append]
  have hfits₁ : chunkFits s ((gs ++ hs).flatten.take k) = true :=
    chunkFits_of_length_le hfits (Nat.add_le_add_left (List.length_take_le' ..) _) (List.length_take_le' ..) rfl
  have hfits₂ : chunkFits (s.afterStream gs p) ((gs ++ hs).flatten.drop k) = true := by
    refine chunkFits_of_length_le hfits ?_ (List.drop_sublist ..).length_le rfl
    change p.length + _ ≤ _
    rw [← List.length_append, hdrop, List.flatten_append, List.length_append]
    exact (Nat.le_add_left ..).trans (Nat.le_add_left ..)
  refine ⟨_, _, _, _, _, _, exec_submit_stream hfits₁ hgs (by rw [hempty, htake]; rfl) hp, rfl,
    exec_submit_stream hfits₂ hhs (hdrop.trans (List.append_nil _).symm) framed_nil, rfl,
    State.afterStream_afterStream s p, ?_⟩
  change Result.ok (streamRecords s.cfg s.draws (gs ++ hs)) (streamEvents (gs ++ hs)) = _
  rw [streamRecords_append, streamEvents_append]
  rfl

end Streams

end Sys2Proof.Machine

/-!
The statements of 42_dispatch.md: a frame kind as one DECODE of its frame (R85, R93), the common fields (R86 to R92),
the generic path (R94) and the frames of at most 10 bytes (R96).
-/

namespace Sys2Proof.Machine

/-! ## A frame kind is one DECODE of its frame -/

/-- A code without a row has no decoder of its own (42_dispatch.md R94). -/
theorem payloadDecoder_eq_pdGeneric {code : Byte} (h : code ∉ rowCodes) (c : Config) :
    payloadDecoder c code = pdGeneric := by
  simp only [rowCodes, List.mem_cons, List.not_mem_nil, or_false, not_or] at h
  funext p r
  simp only [payloadDecoder, h, or_false, if_false]

/-- The kind a row's code selects runs the registry's decode routine for that code (30_encoding.md R50). -/
theorem exec_kindOf_of_row (f : Bytes) (s : State) :
    ∀ code ∈ rowCodes, exec (kindOf code f) s = decodeOp (payloadDecoder s.cfg code) f s := by
  simp only [rowCodes, List.forall_mem_cons]
  exact ⟨rfl, rfl, rfl, rfl, rfl, rfl, rfl, rfl, rfl, rfl, nofun⟩

/-- The kind a code selects runs the registry's decode routine for that code, for all 256 codes (42_dispatch.md R93). -/
theorem exec_kindOf (code : Byte) (f : Bytes) (s : State) :
    exec (kindOf code f) s = decodeOp (payloadDecoder s.cfg code) f s := by
  by_cases hrow : code ∈ rowCodes
  · exact exec_kindOf_of_row f s code hrow
  · rw [kindOf_eq_unknown hrow, payloadDecoder_eq_pdGeneric hrow]
    rfl

@[simp] theorem kindFrame_kindOf (code : Byte) (f : Bytes) : kindFrame (kindOf code f) = some f := by
  simp only [kindOf, apply_ite kindFrame]
  simp only [kindFrame, ite_self]

/-- The record DECODE gives for a frame, under the state's parameters and next sample (42_dispatch.md R85, R92). -/
def State.recordOf (s : State) (f : Bytes) : Record :=
  payloadDecoder s.cfg (protocolOf f) (payloadOf f) (commonFields f (timeSample s.cfg s.draws))

/-- No payload routine touches the common fields of the record (42_dispatch.md R93). -/
theorem State.recordOf_common (s : State) (f : Bytes) :
    SameCommon (commonFields f (timeSample s.cfg s.draws)) (s.recordOf f) := payloadDecoder_common ..

/-- The kind a frame's protocol code selects completes one DECODE with the frame's record. -/
theorem decodes_kindOf (f : Bytes) (s : State) : Decodes (kindOf (protocolOf f) f) s (s.recordOf f) :=
  (exec_kindOf (protocolOf f) f s).trans (decodeOp_eq_next.mpr rfl)

/-- Every well-formed kind completes one DECODE with its frame's record. -/
theorem decodes_of_wellFormed {i : Instr} {f : Bytes} (hf : kindFrame i = some f) (h : i.WellFormed) (s : State) :
    Decodes i s (s.recordOf f) := by
  obtain ⟨-, hkind⟩ := kindOf_of_wellFormed hf h
  exact hkind ▸ decodes_kindOf f s

/-- Settles O40: the kind the frame's protocol code selects is well formed and runs the routine DECODE runs. -/
theorem dispatchIsDecode : Obligations.DispatchIsDecode := fun f s hframe =>
  ⟨kindOf (protocolOf f) f, s.recordOf f, if_pos hframe, wellFormed_kindOf hframe, kindFrame_kindOf ..,
    decodeFrame_eq .., decodes_kindOf f s⟩

/-! ## The common fields -/

/-- `needsResponse` is membership of the code in `ACK_SET` (42_dispatch.md R91). -/
theorem needsAck_iff {code : Byte} : needsAck code = true ↔ code ∈ [(0x01 : Byte), 0x21, 0x15, 0x16, 0x18, 0x19] :=
  List.contains_iff_mem

/-- `serial` is the byte at `total - 6`, which a frame of 5 bytes does not have (42_dispatch.md R88). -/
theorem serialOf_eq_getElem? (f : Bytes) : serialOf f = if 6 ≤ f.length then f[f.length - 6]? else none := by
  unfold serialOf
  split
  case isTrue h => exact (byteAt_of_lt (by omega)).symm
  case isFalse => rfl

/-- Settles O38: the kind runs one DECODE, whose payload routine leaves the common fields, and every offset they are
read at lies inside a frame of `L + 5` bytes. -/
theorem kindCommonFields : Obligations.KindCommonFields := by
  intro i f s hf h
  obtain ⟨hframe, -⟩ := kindOf_of_wellFormed hf h
  obtain ⟨h5, -, hlength⟩ := isCandidate_iff.mp (isFrame_iff.mp hframe).1
  have hbyte (o : Nat) (ho : o < 5) : f[o]? = some (byteAt f o) := byteAt_of_lt (by omega)
  have hcommon := s.recordOf_common f
  refine ⟨s.recordOf f, decodes_of_wellFormed hf h s, hcommon.raw, ?_, ?_, ?_, hcommon.captureTime, ?_, ?_, ?_, ?_,
    ?_⟩
  · rw [hcommon.length, hbyte 2 (by decide)]
    rfl
  · rw [hcommon.length, hlength]
    rfl
  · rw [hcommon.protocol, hbyte 3 (by decide)]
    rfl
  · rw [hcommon.captureTime]
    exact timeSample_lt ..
  · rw [hcommon.serial]
    exact serialOf_eq_getElem? f
  · rw [hcommon.checksum]
    exact byteAt_of_lt (by omega)
  · rw [hcommon.needsResponse, hcommon.protocol]
    exact needsAck_iff
  · rw [hcommon.protocolName, hcommon.protocol]
    rfl

/-! ## The generic path -/

/-- The payload of a frame lies behind its first 4 bytes and before its last 6 (42_dispatch.md R87). -/
theorem payloadOf_eq (f : Bytes) : payloadOf f = (f.drop 4).take (f.length - 10) := by
  rw [payloadOf, slice, Nat.sub_sub]

/-- Settles O41: the five kinds run the generic path, which adds `data` to the common part. -/
theorem genericPathStoresPayload : Obligations.GenericPathStoresPayload := by
  intro i f s _ hi
  have hdecodes : Decodes i s (pdGeneric (payloadOf f) (commonFields f (timeSample s.cfg s.draws))) := by
    obtain rfl | rfl | rfl | rfl | rfl := hi <;> exact decodeOp_eq_next.mpr rfl
  exact ⟨_, hdecodes, congrArg some (payloadOf_eq f), rfl⟩

/-! ## The frames of at most 10 bytes -/

/-- A frame of at most 10 bytes has an empty payload (42_dispatch.md R87). -/
theorem payloadOf_eq_nil {f : Bytes} (h : f.length ≤ 10) : payloadOf f = [] := by
  rw [payloadOf_eq, Nat.sub_eq_zero_of_le h, List.take_zero]

/-- Of an empty payload every decoder but the generic path assigns nothing, and the generic path stores it. -/
theorem payloadDecoder_nil (c : Config) (code : Byte) (r : Record) :
    payloadDecoder c code [] r = r ∨ payloadDecoder c code [] r = { r with data := some [] } := by
  unfold payloadDecoder
  split_ifs
  case neg => exact .inr rfl
  all_goals exact .inl rfl

/-- No payload field is reported: `data` is absent or empty, every other specific field absent. -/
def NoPayload (r : Record) : Prop := (r.data = none ∨ r.data = some []) ∧ onlyCommon { r with data := none }

theorem NoPayload.terminalId {r : Record} (h : NoPayload r) : r.terminalId = none :=
  congrArg Record.terminalId h.2

/-- What DECODE reports for a frame of at most 10 bytes: the common fields and no payload field (42_dispatch.md R96). -/
theorem decodeFrame_of_length_le_ten (c : Config) {f : Bytes} (t : Nat) (h : f.length ≤ 10) :
    ∃ r, decodeFrame c f t = some r ∧ SameCommon (commonFields f t) r ∧ NoPayload r := by
  refine ⟨_, decodeFrame_eq .., payloadDecoder_common .., ?_⟩
  rw [payloadOf_eq_nil h]
  obtain hsame | hdata := payloadDecoder_nil c (protocolOf f) (commonFields f t)
  · rw [hsame]
    exact ⟨.inl rfl, rfl⟩
  · rw [hdata]
    exact ⟨.inr rfl, rfl⟩

/-- Settles O42: each of the six frames has an empty payload, so its record is the common fields, read off the frame
written out. -/
theorem smallFrames : Obligations.SmallFrames := by
  intro c t s pp x y z w
  have hsmall (f : Bytes) (h : f.length ≤ 10) := decodeFrame_of_length_le_ten c t h
  obtain ⟨r₀, hr₀, h₀, e₀⟩ := hsmall [s, s, 0, 0x0D, 0x0A] (by simp)
  obtain ⟨r₁, hr₁, h₁, e₁⟩ := hsmall [s, s, 1, pp, 0x0D, 0x0A] (by simp)
  obtain ⟨r₂, hr₂, h₂, e₂⟩ := hsmall [s, s, 2, pp, x, 0x0D, 0x0A] (by simp)
  obtain ⟨r₃, hr₃, h₃, e₃⟩ := hsmall [s, s, 3, pp, x, y, 0x0D, 0x0A] (by simp)
  obtain ⟨r₄, hr₄, h₄, e₄⟩ := hsmall [s, s, 4, pp, x, y, z, 0x0D, 0x0A] (by simp)
  obtain ⟨r₅, hr₅, h₅, e₅⟩ := hsmall [s, s, 5, pp, x, y, z, w, 0x0D, 0x0A] (by simp)
  have hdata₀ : r₀.data = some [] := by
    cases hr₀
    rfl
  have hlogin : pp = 0x01 → r₁.protocolName = .login ∧ r₁.needsResponse = true ∧ r₁.terminalId = none := by
    rintro rfl
    exact ⟨h₁.protocolName, h₁.needsResponse, e₁.terminalId⟩
  refine ⟨r₀, r₁, r₂, r₃, r₄, r₅,
    hr₀, h₀.length, h₀.protocol, h₀.serial, h₀.checksum, hdata₀,
    hr₁, h₁.length, h₁.protocol, h₁.serial, h₁.checksum, hlogin,
    hr₂, h₂.length, h₂.protocol, h₂.serial, h₂.checksum,
    hr₃, h₃.length, h₃.protocol, h₃.serial, h₃.checksum,
    hr₄, h₄.length, h₄.protocol, h₄.serial, h₄.checksum,
    hr₅, h₅.length, h₅.protocol, h₅.serial, h₅.checksum, ?_⟩
  change ∀ r ∈ [r₀, r₁, r₂, r₃, r₄, r₅], NoPayload r
  simp only [List.forall_mem_cons]
  exact ⟨e₀, e₁, e₂, e₃, e₄, e₅, List.forall_mem_nil _⟩

end Sys2Proof.Machine

/-!
The statements of 43_payload_decoders.md: the login, status and alarm records (R98 to R100), the standard GPS/LBS block
(R101 to R112), the signed coordinates (R113, R114), the extended variant (R115 to R121), and the presence invariants
of every record reported (R123).
-/

namespace Sys2Proof.Machine

/-! ## Fields as numbers -/

/-- A byte appended below a bit pattern (00_scope.md R10). -/
theorem toNat_append_byte {n : Nat} (x : BitVec n) (b : Byte) : (x ++ b).toNat = x.toNat * 256 + b.toNat := by
  rw [BitVec.toNat_append, ← Nat.shiftLeft_add_eq_or_of_lt b.isLt, Nat.shiftLeft_eq]

theorem be16_toNat (p : Bytes) (o : Nat) : (be16 p o).toNat = nth p o * 256 + nth p (o + 1) :=
  toNat_append_byte ..

theorem be24_toNat (p : Bytes) (o : Nat) :
    (be24 p o).toNat = nth p o * 65536 + nth p (o + 1) * 256 + nth p (o + 2) := by
  simp only [be24, toNat_append_byte, nth, byteAt]
  omega

theorem be32_toNat (p : Bytes) (o : Nat) :
    (be32 p o).toNat = nth p o * 2 ^ 24 + nth p (o + 1) * 2 ^ 16 + nth p (o + 2) * 2 ^ 8 + nth p (o + 3) := by
  simp only [be32, toNat_append_byte, nth, byteAt]
  omega

theorem nth_lt (p : Bytes) (o : Nat) : nth p o < 256 := (byteAt p o).isLt

theorem hiNibble_toNat (p : Bytes) (o : Nat) : (hiNibble (byteAt p o)).toNat = nth p o / 16 := by
  rw [hiNibble, BitVec.extractLsb'_toNat, Nat.shiftRight_eq_div_pow,
    Nat.mod_eq_of_lt (Nat.div_lt_of_lt_mul (nth_lt p o))]
  rfl

/-- The nibble packing of the latitude (43_payload_decoders.md R104). -/
theorem stdLatitude_toNat (g : Bytes) : (stdLatitude g).toNat =
    (nth g 6 % 16) * 2 ^ 24 + nth g 7 * 2 ^ 16 + nth g 8 * 2 ^ 8 + nth g 9 := by
  have hlow : (0#4 ++ loNibble (byteAt g 6)).toNat = nth g 6 % 16 := by
    rw [BitVec.toNat_append, loNibble, BitVec.extractLsb'_toNat]
    simp [nth, byteAt]
  simp only [stdLatitude, toNat_append_byte, hlow]
  simp only [nth, byteAt]
  omega

/-- The signed value of a big-endian field (00_scope.md R10). -/
theorem sext16_be16 (p : Bytes) (o : Nat) : sext16 (be16 p o) =
    if nth p o < 128 then ((nth p o * 256 + nth p (o + 1) : Nat) : Int)
    else (nth p o * 256 + nth p (o + 1) : Nat) - 65536 := by
  have hlow := nth_lt p (o + 1)
  rw [sext16, BitVec.toInt_eq_toNat_cond, be16_toNat]
  split_ifs <;> omega

/-- A test of one bit of a status word, with the bit as a mask (43_payload_decoders.md R109). -/
theorem and_twoPow_beq_zero (w : BitVec 16) {k : Nat} (hk : k < 16) :
    (w &&& BitVec.twoPow 16 k == 0) = !w.toNat.testBit k := by
  rw [BitVec.and_twoPow]
  change _ = !w.getLsbD k
  have hne : BitVec.twoPow 16 k ≠ 0 := fun h => by simpa [hk] using congrArg (·.getLsbD k) h
  cases w.getLsbD k
  · rfl
  · exact beq_false_of_ne hne

/-- The status word as a number: course in the low 10 bits, a flag true when its bit is clear (43_payload_decoders.md
R108, R109). -/
theorem fixFlags_of_toNat {v : BitVec 16} {w : Nat} (h : w = v.toNat) :
    (fixFlags v).course.toNat = w % 1024 ∧ (fixFlags v).realTime = !w.testBit 13 ∧
      (fixFlags v).positioned = !w.testBit 12 ∧ (fixFlags v).east = !w.testBit 11 ∧
      (fixFlags v).north = !w.testBit 10 := by
  subst h
  have hflag {k : Nat} (hk : k < 16) := and_twoPow_beq_zero v hk
  exact ⟨by simp [fixFlags], hflag (k := 13) (by decide), hflag (k := 12) (by decide), hflag (k := 11) (by decide),
    hflag (k := 10) (by decide)⟩

/-- The cell block that fits at an offset, as numbers (30_encoding.md R58). -/
theorem cellAt_fields {p : Bytes} {o : Nat} (h : o + 8 ≤ p.length) :
    (cellAt p o).mcc.toNat = nth p o * 256 + nth p (o + 1) ∧ some (cellAt p o).mnc = p[o + 2]? ∧
      (cellAt p o).lac.toNat = nth p (o + 3) * 256 + nth p (o + 4) ∧
      (cellAt p o).cellId.toNat = nth p (o + 5) * 65536 + nth p (o + 6) * 256 + nth p (o + 7) :=
  ⟨be16_toNat p o, (byteAt_of_lt (by omega)).symm, be16_toNat p (o + 3), be24_toNat p (o + 5)⟩

/-- The fix time as six numbers in range (43_payload_decoders.md R102). -/
theorem gpsTimeOf_eq (g : Bytes) : gpsTimeOf g =
    if nth g 0 ≤ 50 ∧ 1 ≤ nth g 1 ∧ nth g 1 ≤ 12 ∧ 1 ≤ nth g 2 ∧ nth g 2 ≤ 31 ∧ nth g 3 ≤ 23 ∧
        nth g 4 ≤ 59 ∧ nth g 5 ≤ 59
    then some ⟨2000 + nth g 0, nth g 1, nth g 2, nth g 3, nth g 4, nth g 5⟩ else none := by
  have hrange : dtOk g = true ↔ nth g 0 ≤ 50 ∧ 1 ≤ nth g 1 ∧ nth g 1 ≤ 12 ∧ 1 ≤ nth g 2 ∧ nth g 2 ≤ 31 ∧
      nth g 3 ≤ 23 ∧ nth g 4 ≤ 59 ∧ nth g 5 ≤ 59 := by
    simp only [dtOk, Bool.and_eq_true, decide_eq_true_eq, and_assoc]
    rfl
  simp only [← hrange]
  rfl

/-- A coordinate of the extended variant as a number (43_payload_decoders.md R117, R118). -/
theorem acceptRaw_toNat {v : BitVec 32} {n : Nat} (h : n = v.toNat) (q : Prop) [Decidable q] :
    (if q then acceptRaw v none else none).map BitVec.toNat =
      if q ∧ 0 < n ∧ n < 0xFFFFFFFF then some n else none := by
  subst h
  by_cases hq : q <;> simp [hq, acceptRaw, apply_ite (Option.map BitVec.toNat)]

/-! ## The login and status records -/

/-- What a login payload adds to the common part (43_payload_decoders.md R98). -/
theorem pdLogin_commonFields (p f : Bytes) (t : Nat) : pdLogin p (commonFields f t) =
    { commonFields f t with
      terminalId := if 8 ≤ p.length then some (p.take 8) else none
      deviceType := if 10 ≤ p.length then some (be16 p 8) else none
      timezone := if 12 ≤ p.length then some (sext16 (be16 p 10)) else none } := by
  unfold pdLogin
  split
  case isTrue h8 =>
    simp (disch := omega) only [if_neg]
    rfl
  case isFalse h8 => rw [if_pos (Nat.le_of_not_lt h8)]; rfl

/-- Settles O43: the three fields are read at their gates, and no other field is assigned. -/
theorem loginRecord : Obligations.LoginRecord := by
  rintro f p s - rfl
  rw [← payloadOf_eq]
  refine ⟨_, decodeOp_eq_next.mpr rfl, ?_⟩
  rw [pdLogin_commonFields]
  refine ⟨rfl, ?_, ?_, rfl⟩
  · simp only [Option.map_if, be16_toNat]
  · simp only [sext16_be16]

/-- A trailing byte of a status payload is there iff its offset lies inside it (43_payload_decoders.md R99). -/
theorem trailing_none (p : Bytes) (o : Nat) : trailing p o none = p[o]? := by
  unfold trailing
  split
  case isTrue h => exact (byteAt_of_lt h).symm
  case isFalse h => exact (List.getElem?_eq_none (Nat.le_of_not_lt h)).symm

/-- The GSM level is bits 7:6 of the status byte (43_payload_decoders.md R99). -/
theorem statusFlags_gsmSignalLevel (p : Bytes) :
    (statusFlags StatusBits.default (byteAt p 0)).gsmSignalLevel.toNat = nth p 0 / 64 := by
  have hbits (b : Byte) : BitVec.ofBool (b.getLsbD 7) ++ BitVec.ofBool (b.getLsbD 6) = b.extractLsb' 6 2 := by
    refine BitVec.eq_of_getLsbD_eq fun i hi => ?_
    rw [BitVec.getLsbD_append, BitVec.getLsbD_extractLsb']
    obtain rfl | rfl : i = 0 ∨ i = 1 := by omega
    all_goals simp
  have hbyte := nth_lt p 0
  calc (statusFlags StatusBits.default (byteAt p 0)).gsmSignalLevel.toNat
      = ((byteAt p 0).extractLsb' 6 2).toNat := congrArg BitVec.toNat (hbits _)
    _ = nth p 0 / 64 % 4 := by rw [BitVec.extractLsb'_toNat, Nat.shiftRight_eq_div_pow]; rfl
    _ = nth p 0 / 64 := by omega

/-- What a status payload adds to the common part (43_payload_decoders.md R99). -/
theorem pdStatus_commonFields (l : StatusBits) (p f : Bytes) (t : Nat) : pdStatus l p (commonFields f t) =
    { commonFields f t with
      status := if 1 ≤ p.length then some (statusFlags l (byteAt p 0)) else none
      voltageLevel := p[l.voltageAt]?
      gsmSignalStrength := p[l.strengthAt]?
      alarmCode := p[l.alarmAt]?
      languageCode := p[l.languageAt]? } := by
  cases p with
  | nil => rfl
  | cons b rest =>
    simp only [← trailing_none]
    rfl

/-- Settles O44: under the default layout the flags are the bits of byte 0, and the four bytes behind it are read iff
they are there. -/
theorem statusRecord : Obligations.StatusRecord := by
  rintro f p s - hlayout rfl
  rw [← payloadOf_eq]
  refine ⟨_, decodeOp_eq_next.mpr rfl, ?_⟩
  rw [hlayout]
  generalize payloadOf f = p
  rw [pdStatus_commonFields]
  refine ⟨fun h => ?_, fun h => ?_, rfl, rfl, rfl, rfl, rfl⟩
  · rw [List.length_eq_zero_iff.mp (Nat.lt_one_iff.mp h)]
    rfl
  · exact ⟨_, if_pos h, rfl, rfl, rfl, rfl, rfl, rfl, statusFlags_gsmSignalLevel p⟩

/-! ## The GPS fields of a record -/

/-- The GPS and cell fields a payload decides by itself: all of them but the signed coordinates. -/
structure GpsFields where
  gpsTime : Option GpsTime := none
  satellites : Option (BitVec 4) := none
  latRaw : Option (BitVec 32) := none
  lonRaw : Option (BitVec 32) := none
  speed : Option Byte := none
  fix : Option FixFlags := none
  cell : Option CellBlock := none
  additionalData : Option Bytes := none

/-- The record with these fields and the signed coordinates they determine (43_payload_decoders.md R113, R114). -/
def Record.withGps (c : Config) (r : Record) (x : GpsFields) : Record :=
  { r with
    gpsTime := x.gpsTime
    satellites := x.satellites
    latRaw := x.latRaw
    lonRaw := x.lonRaw
    speed := x.speed
    fix := x.fix
    latitude := x.fix.bind fun w => x.latRaw.map (signedCoord c w.north)
    longitude := x.fix.bind fun w => x.lonRaw.map (signedCoord c w.east)
    cell := x.cell
    additionalData := x.additionalData }

/-- The common part of a record and the alarm flags, if any: what stands in front of a standard block. -/
def alarmBase (f : Bytes) (t : Nat) (al : Option AlarmFlags) : Record := { commonFields f t with alarmType := al }

/-- The offset of the first field that a standard block of `n` bytes does not reach (43_payload_decoders.md R111); its
end below 12 bytes, of which nothing is left over (R101). -/
def leftOverAt (n : Nat) : Nat :=
  if n < 12 then n else if n < 14 then 10 else if n < 15 then 14 else if n < 17 then 15 else if n < 26 then 17 else 25

/-- The fields of a standard block, each with its gate (43_payload_decoders.md R101 to R111). -/
def stdGpsFields (g : Bytes) : GpsFields where
  gpsTime := if 12 ≤ g.length then gpsTimeOf g else none
  satellites := if 12 ≤ g.length then some (hiNibble (byteAt g 6)) else none
  latRaw := if 12 ≤ g.length then some (stdLatitude g) else none
  lonRaw := if 14 ≤ g.length then some (be32 g 10) else none
  speed := if 15 ≤ g.length then some (byteAt g 14) else none
  fix := if 17 ≤ g.length then some (fixFlags (be16 g 15)) else none
  cell := if 26 ≤ g.length then some (cellAt g 17) else none
  additionalData := if leftOverAt g.length < g.length then some (g.drop (leftOverAt g.length)) else none

section WithGps

/-! The stages of the two GPS decoders, on a record whose GPS fields are `x`. -/

variable (c : Config) (g : Bytes) (r : Record) (x : GpsFields)

theorem leftOver_withGps (off : Nat) : leftOver g off (r.withGps c x) = r.withGps c
    { x with additionalData := if off < g.length then some (g.drop off) else x.additionalData } := by
  unfold leftOver
  split <;> rfl

theorem gpsCell_withGps : gpsCell g (r.withGps c x) =
    if 26 ≤ g.length then leftOver g 25 (r.withGps c { x with cell := some (cellAt g 17) })
    else leftOver g 17 (r.withGps c x) :=
  if_congr (by omega) rfl rfl

theorem addStatusWord_withGps (w : BitVec 16) (hx : x.fix = none) :
    addStatusWord c w (r.withGps c x) = r.withGps c { x with fix := some (fixFlags w) } := by
  simp [addStatusWord, Record.withGps, hx]

theorem gpsStatusWord_withGps (hx : x.fix = none) : gpsStatusWord c g (r.withGps c x) =
    if 17 ≤ g.length then gpsCell g (r.withGps c { x with fix := some (fixFlags (be16 g 15)) })
    else leftOver g 15 (r.withGps c x) := by
  rw [← addStatusWord_withGps _ _ _ _ hx]
  rfl

theorem gpsSpeed_withGps : gpsSpeed c g (r.withGps c x) =
    if 15 ≤ g.length then gpsStatusWord c g (r.withGps c { x with speed := some (byteAt g 14) })
    else leftOver g 14 (r.withGps c x) := rfl

theorem gpsLongitude_withGps (hx : x.fix = none) : gpsLongitude c g (r.withGps c x) =
    if 14 ≤ g.length then gpsSpeed c g (r.withGps c { x with lonRaw := some (be32 g 10) })
    else leftOver g 10 (r.withGps c x) := by
  simp [gpsLongitude, Record.withGps, hx]

end WithGps

/-! ## The standard block, and the alarm record in front of it -/

/-- The standard block's decoder assigns these fields and no other (43_payload_decoders.md R101 to R112). -/
theorem pdGpsLbs_alarmBase (c : Config) (g f : Bytes) (t : Nat) (al : Option AlarmFlags) :
    pdGpsLbs c g (alarmBase f t al) = (alarmBase f t al).withGps c (stdGpsFields g) := by
  have hstart : pdGpsLbs c g (alarmBase f t al) =
      if g.length < 12 then (alarmBase f t al).withGps c {}
      else gpsLongitude c g ((alarmBase f t al).withGps c
        { gpsTime := gpsTimeOf g, satellites := some (hiNibble (byteAt g 6)), latRaw := some (stdLatitude g) }) := by
    simp [pdGpsLbs, addGpsTime, Record.withGps, alarmBase, commonFields]
  rw [hstart, gpsLongitude_withGps _ _ _ _ rfl, gpsSpeed_withGps, gpsStatusWord_withGps _ _ _ _ rfl, gpsCell_withGps]
  simp only [leftOver_withGps, stdGpsFields, leftOverAt]
  obtain h | h | h | h | h | h : g.length < 12 ∨ (12 ≤ g.length ∧ g.length < 14) ∨ g.length = 14 ∨
    (15 ≤ g.length ∧ g.length < 17) ∨ (17 ≤ g.length ∧ g.length < 26) ∨ 26 ≤ g.length := by omega
  all_goals simp (disch := omega) only [if_pos, if_neg]

/-- Every kind with a standard block completes one DECODE, with the fields of that block behind the common part and the
alarm flags (43_payload_decoders.md R100, R112). -/
theorem decodes_gpsBlock {i : Instr} {g : Bytes} (hg : gpsBlock i = some g) (s : State) :
    ∃ f al, Decodes i s ((alarmBase f (timeSample s.cfg s.draws) al).withGps s.cfg (stdGpsFields g)) := by
  simp only [← pdGpsLbs_alarmBase]
  match i with
  | .gpsLbsStatus f | .gpsLbsData f =>
    cases hg
    exact ⟨f, none, decodeOp_eq_next.mpr rfl⟩
  | .alarmData f =>
    rw [gpsBlock, ite_eq_iff] at hg
    obtain ⟨-, h⟩ | ⟨hne, h⟩ := hg <;> cases h
    have hlen : ¬ (payloadOf f).length < 1 := by simpa using hne
    refine ⟨f, some (alarmFlags (byteAt (payloadOf f) 0)), decodeOp_eq_next.mpr ?_⟩
    rw [pdAlarm, if_neg hlen]
    rfl

/-- Settles O45: behind the flags of byte 0 stand the fields of the standard block, whatever the flags. -/
theorem alarmRecord : Obligations.AlarmRecord := by
  rintro f p s - rfl
  rw [← payloadOf_eq]
  refine ⟨_, decodeOp_eq_next.mpr rfl, ?_⟩
  generalize payloadOf f = p
  unfold pdAlarm
  split
  case isTrue h => exact ⟨fun _ => rfl, fun h' => absurd h (Nat.not_lt.mpr h')⟩
  case isFalse h =>
    refine ⟨fun h' => absurd h' h, fun _ => ?_⟩
    have hwith := pdGpsLbs_alarmBase s.cfg (p.drop 1) f (timeSample s.cfg s.draws)
    refine ⟨⟨alarmFlags (byteAt p 0), ?_, rfl, rfl, rfl, rfl, rfl, rfl, rfl, rfl⟩, ?_⟩
    · exact congrArg Record.alarmType (hwith (some _))
    · exact (congrArg (fun r => { r with alarmType := none }) (hwith (some _))).trans (hwith none).symm

/-- Settles O46: below 12 bytes every gate of the standard block is shut. -/
theorem shortGpsBlock : Obligations.ShortGpsBlock := by
  intro i g s _ hg hlen
  obtain ⟨f, al, hdecodes⟩ := decodes_gpsBlock hg s
  have hnone : stdGpsFields g = {} := by
    simp (disch := omega) only [stdGpsFields, leftOverAt, if_pos, if_neg]
  exact ⟨_, hdecodes, by rw [hnone]; rfl⟩

/-- Settles O48: the gates of the standard block at 12, 14 and 15 bytes. -/
theorem standardFixedFields : Obligations.StandardFixedFields := by
  intro i g s _ hg h12
  obtain ⟨f, al, hdecodes⟩ := decodes_gpsBlock hg s
  have hlat := stdLatitude_toNat g
  have h7 := nth_lt g 7
  have h8 := nth_lt g 8
  have h9 := nth_lt g 9
  refine ⟨_, stdLatitude g, hdecodes, ?_, if_pos h12, hlat, by omega, ?_, ?_⟩
  · simp [Record.withGps, stdGpsFields, h12, hiNibble_toNat]
  · simp only [Record.withGps, stdGpsFields, Option.map_if, be32_toNat]
  · exact if_ctx_congr Iff.rfl (fun h15 => (byteAt_of_lt h15).symm) fun _ => rfl

/-- Settles O49: below 17 bytes no status word is read, from there on it is the word at 15. -/
theorem statusWordFlags : Obligations.StatusWordFlags := by
  intro i g w s _ hg hw
  obtain ⟨f, al, hdecodes⟩ := decodes_gpsBlock hg s
  refine ⟨_, hdecodes, fun hlt => ?_, fun h17 => ?_⟩
  · have hfix : (stdGpsFields g).fix = none := if_neg (Nat.not_le.mpr hlt)
    simp [Record.withGps, hfix]
  · exact ⟨_, if_pos h17, fixFlags_of_toNat (hw.trans (be16_toNat g 15).symm)⟩

/-- Settles O51: the cell block's gate, and the left-over bytes behind the last field whose gate is open. -/
theorem cellBlockAndLeftOver : Obligations.CellBlockAndLeftOver := by
  intro i g off s _ hg h12 hoff
  obtain ⟨f, al, hdecodes⟩ := decodes_gpsBlock hg s
  have hat : leftOverAt g.length = off := (if_neg (Nat.not_lt.mpr h12)).trans hoff.symm
  refine ⟨_, hdecodes, ?_, fun hlt => if_neg (Nat.not_le.mpr hlt), fun h26 => ?_⟩
  · rw [← hat]
    rfl
  · exact ⟨_, if_pos h26, cellAt_fields (Nat.le_of_succ_le h26)⟩

/-- The bytes of a field that is known as a list. -/
theorem nth_of_take_drop {g l : Bytes} {o n : Nat} (h : (g.drop o).take n = l) {j : Nat} (hj : j < n) :
    nth g (o + j) = nth l j := by
  rw [← h]
  simp [nth, hj]

/-- Settles O55: the nibbles and bytes of the pair are the digits the decoder adds up again. -/
theorem coordinateRoundTrip : Obligations.CoordinateRoundTrip := by
  intro i g k a b s _ hg h14 hk ha hb hbytes
  obtain ⟨f, al, hdecodes⟩ := decodes_gpsBlock hg s
  have hbyte {j : Nat} (hj : j < 8) := nth_of_take_drop hbytes hj
  have h6 : nth g 6 = (k * 16 + a / 2 ^ 24) % 256 := hbyte (j := 0) (by decide)
  have h7 : nth g 7 = a / 2 ^ 16 % 256 % 256 := hbyte (j := 1) (by decide)
  have h8 : nth g 8 = a / 2 ^ 8 % 256 % 256 := hbyte (j := 2) (by decide)
  have h9 : nth g 9 = a % 256 % 256 := hbyte (j := 3) (by decide)
  have h10 : nth g 10 = b / 2 ^ 24 % 256 := hbyte (j := 4) (by decide)
  have h11 : nth g 11 = b / 2 ^ 16 % 256 % 256 := hbyte (j := 5) (by decide)
  have h12 : nth g 12 = b / 2 ^ 8 % 256 % 256 := hbyte (j := 6) (by decide)
  have h13 : nth g 13 = b % 256 % 256 := hbyte (j := 7) (by decide)
  have hsat : (hiNibble (byteAt g 6)).toNat = k := by rw [hiNibble_toNat]; omega
  have hlat : (stdLatitude g).toNat = a := by rw [stdLatitude_toNat]; omega
  have hlon : (be32 g 10).toNat = b := by simp only [be32_toNat, Nat.reduceAdd]; omega
  have hgate : 12 ≤ g.length := by omega
  refine ⟨_, hdecodes, ?_⟩
  simp [Record.withGps, stdGpsFields, hgate, h14, hsat, hlat, hlon]

/-! ## The extended variant -/

/-- The fields of an extended payload, each with its gate (43_payload_decoders.md R115 to R121). -/
def extGpsFields (p : Bytes) : GpsFields where
  gpsTime := if 6 ≤ p.length then gpsTimeOf p else none
  latRaw := if 11 ≤ p.length then acceptRaw (be32 p 7) none else none
  lonRaw := if 15 ≤ p.length then acceptRaw (be32 p 11) none else none
  speed := if 16 ≤ p.length then some (byteAt p 15) else none
  fix := if 18 ≤ p.length then some (fixFlags (be16 p 16)) else none
  cell := if 18 ≤ p.length then scanCell p p.length 18 else none

section WithGps

variable (c : Config) (p : Bytes) (r : Record) (x : GpsFields)

theorem a0StatusWord_withGps (hfix : x.fix = none) (hcell : x.cell = none) : a0StatusWord c p (r.withGps c x) =
    if p.length < 18 then r.withGps c x
    else r.withGps c { x with fix := some (fixFlags (be16 p 16)), cell := scanCell p p.length 18 } := by
  rw [a0StatusWord, addStatusWord_withGps _ _ _ _ hfix]
  simp [Record.withGps, hcell]

theorem a0Speed_withGps : a0Speed c p (r.withGps c x) =
    if p.length < 16 then r.withGps c x
    else a0StatusWord c p (r.withGps c { x with speed := some (byteAt p 15) }) := rfl

theorem a0Longitude_withGps (hfix : x.fix = none) : a0Longitude c p (r.withGps c x) =
    if p.length < 15 then r.withGps c x
    else a0Speed c p (r.withGps c { x with lonRaw := acceptRaw (be32 p 11) x.lonRaw }) := by
  simp [a0Longitude, Record.withGps, hfix]

theorem a0Latitude_withGps (hfix : x.fix = none) : a0Latitude c p (r.withGps c x) =
    if p.length < 11 then r.withGps c x
    else a0Longitude c p (r.withGps c { x with latRaw := acceptRaw (be32 p 7) x.latRaw }) := by
  simp [a0Latitude, Record.withGps, hfix]

end WithGps

/-- The extended variant's decoder assigns these fields and no other (43_payload_decoders.md R121). -/
theorem pdGpsLbsA0_commonFields (c : Config) (p f : Bytes) (t : Nat) :
    pdGpsLbsA0 c p (commonFields f t) = (commonFields f t).withGps c (extGpsFields p) := by
  have hstart : pdGpsLbsA0 c p (commonFields f t) =
      if p.length < 6 then (commonFields f t).withGps c {}
      else a0Latitude c p ((commonFields f t).withGps c { gpsTime := gpsTimeOf p }) := by
    simp [pdGpsLbsA0, addGpsTime, Record.withGps, commonFields]
  rw [hstart, a0Latitude_withGps _ _ _ _ rfl, a0Longitude_withGps _ _ _ _ rfl, a0Speed_withGps,
    a0StatusWord_withGps _ _ _ _ rfl rfl]
  simp only [extGpsFields]
  obtain h | h | h | h | h | h : p.length < 6 ∨ (6 ≤ p.length ∧ p.length < 11) ∨
    (11 ≤ p.length ∧ p.length < 15) ∨ p.length = 15 ∨ (16 ≤ p.length ∧ p.length < 18) ∨ 18 ≤ p.length := by omega
  all_goals simp (disch := omega) only [if_pos, if_neg]

/-- The kind `0xA0` completes one DECODE, with the fields of its payload behind the common part. -/
theorem decodes_gpsLbsStatusA0 (f : Bytes) (s : State) : Decodes (.gpsLbsStatusA0 f) s
    ((commonFields f (timeSample s.cfg s.draws)).withGps s.cfg (extGpsFields (payloadOf f))) :=
  decodeOp_eq_next.mpr (by rw [pdGpsLbsA0_commonFields])

/-- Settles O47: in both variants the time is the first field behind the first gate. -/
theorem fixTimeRanges : Obligations.FixTimeRanges := by
  rintro i g s - (⟨hg, h12⟩ | ⟨f, rfl, rfl, h6⟩)
  · obtain ⟨f, al, hdecodes⟩ := decodes_gpsBlock hg s
    exact ⟨_, hdecodes, (if_pos h12).trans (gpsTimeOf_eq g)⟩
  · exact ⟨_, decodes_gpsLbsStatusA0 f s, (if_pos h6).trans (gpsTimeOf_eq _)⟩

/-- Settles O52: each coordinate has its own gate and its own bounds. -/
theorem extendedCoordinates : Obligations.ExtendedCoordinates := by
  rintro f p la lo s - rfl hla hlo
  exact ⟨_, decodes_gpsLbsStatusA0 f s, acceptRaw_toNat (hla.trans (be32_toNat _ 7).symm) _,
    acceptRaw_toNat (hlo.trans (be32_toNat _ 11).symm) _⟩

section SetByte

/-! Another byte at offset `k` changes no field read behind it. -/

variable {p : Bytes} {k o : Nat} {v : Byte}

theorem byteAt_set (h : k ≠ o) : byteAt (p.set k v) o = byteAt p o := by
  simp [byteAt, h]

theorem be16_set (h : k < o) : be16 (p.set k v) o = be16 p o := by
  simp (disch := omega) only [be16, byteAt_set]

theorem be32_set (h : k < o) : be32 (p.set k v) o = be32 p o := by
  simp (disch := omega) only [be32, byteAt_set]

theorem cellAt_set (h : k < o) : cellAt (p.set k v) o = cellAt p o := by
  simp (disch := omega) only [cellAt, be16, be24, byteAt_set]

theorem scanCell_set (h : k < o) (n : Nat) : scanCell (p.set k v) n o = scanCell p n o := by
  induction n generalizing o with
  | zero => rfl
  | succ n ih => rw [scanCell, scanCell, List.length_set, be16_set h, cellAt_set h, ih (Nat.lt_succ_of_lt h)]

theorem gpsTimeOf_set (h : 6 ≤ k) : gpsTimeOf (p.set k v) = gpsTimeOf p := by
  have hrange : dtOk (p.set k v) = dtOk p := by
    simp (disch := omega) only [dtOk, byteAt_set]
  simp (disch := omega) only [gpsTimeOf, hrange, byteAt_set]

end SetByte

/-- The byte at offset 6 is skipped (43_payload_decoders.md R116). -/
theorem extGpsFields_set_six (p : Bytes) (v : Byte) : extGpsFields (p.set 6 v) = extGpsFields p := by
  simp (disch := omega) only [extGpsFields, List.length_set, gpsTimeOf_set, be32_set, be16_set, byteAt_set,
    scanCell_set]

/-- Settles O53: the gates at 6, 16 and 18 bytes, and no field of the record reads the byte at offset 6. -/
theorem extendedSpeedAndStatus : Obligations.ExtendedSpeedAndStatus := by
  rintro f p w s - rfl hw
  refine ⟨_, decodes_gpsLbsStatusA0 f s, ?_⟩
  generalize payloadOf f = p at hw ⊢
  refine ⟨rfl, rfl, rfl, fun h6 => ?_, ?_, fun h18 => ?_, fun h18 => ?_, fun v t => ?_⟩
  · have hnone : extGpsFields p = {} := by
      simp (disch := omega) only [extGpsFields, if_neg]
    rw [hnone]
    rfl
  · exact if_ctx_congr Iff.rfl (fun h16 => (byteAt_of_lt h16).symm) fun _ => rfl
  · have hgate : ¬ 18 ≤ p.length := Nat.not_le.mpr h18
    simp [Record.withGps, extGpsFields, hgate]
  · exact ⟨_, if_pos h18, fixFlags_of_toNat (hw.trans (be16_toNat p 16).symm)⟩
  · rw [pdGpsLbsA0_commonFields, pdGpsLbsA0_commonFields, extGpsFields_set_six]

/-- A plausible MCC as a number (43_payload_decoders.md R120). -/
theorem plausibleMcc_iff {p : Bytes} {i : Nat} : plausibleMcc (be16 p i) = true ↔
    100 ≤ nth p i * 256 + nth p (i + 1) ∧ nth p i * 256 + nth p (i + 1) ≤ 999 := by
  rw [← be16_toNat]
  simp [plausibleMcc]

/-- The scan answers with the block at the least plausible offset, when that block fits and lies within its bound
(43_payload_decoders.md R120). -/
theorem scanCell_eq_some {p : Bytes} {n i j : Nat} (hij : i ≤ j) (hjn : j < i + n) (hfit : j + 8 ≤ p.length)
    (hj : plausibleMcc (be16 p j) = true) (hleast : ∀ m, i ≤ m → m < j → ¬ plausibleMcc (be16 p m) = true) :
    scanCell p n i = some (cellAt p j) := by
  induction n generalizing i with
  | zero => omega
  | succ n ih =>
    rw [scanCell, if_pos (by omega)]
    obtain rfl | hlt := Nat.eq_or_lt_of_le hij
    · exact if_pos hj
    · rw [if_neg (hleast i le_rfl hlt)]
      exact ih hlt (by omega) fun m hm => hleast m (Nat.le_of_succ_le hm)

/-- Settles O54: the scan starts at 18 and ends at the first hit or where no block fits. -/
theorem extendedCellScan : Obligations.ExtendedCellScan := by
  rintro f p s - rfl
  refine ⟨_, decodes_gpsLbsStatusA0 f s, ?_⟩
  generalize payloadOf f = p
  intro hit
  have hhit {i : Nat} (h18 : 18 ≤ i) (hfit : i + 8 ≤ p.length) (h : plausibleMcc (be16 p i) = true) : hit i :=
    ⟨h18, hfit, plausibleMcc_iff.mp h⟩
  refine ⟨fun i hi hleast => ?_, fun hnone => ?_⟩
  · obtain ⟨h18, hfit, hmcc⟩ := hi
    have hscan : scanCell p p.length 18 = some (cellAt p i) :=
      scanCell_eq_some h18 (by omega) hfit (plausibleMcc_iff.mpr hmcc)
        fun m hm hlt h => hleast m hlt (hhit hm (by omega) h)
    exact ⟨_, (if_pos (by omega)).trans hscan, cellAt_fields hfit⟩
  · have hscan : scanCell p p.length 18 = none := Option.eq_none_iff_forall_ne_some.mpr fun b hb => by
      obtain ⟨j, h18, hfit, hmcc, -⟩ := scanCell_some hb
      exact hnone j (hhit h18 hfit hmcc)
    exact ite_eq_right_iff.mpr fun _ => hscan

/-! ## Every record: signed coordinates and presence -/

/-- The six decode routines of the registry and the codes that select them (42_dispatch.md R93, R94). -/
theorem payloadDecoder_cases (c : Config) (code : Byte) :
    (code = 0x01 ∧ payloadDecoder c code = pdLogin) ∨
    ((code = 0x12 ∨ code = 0x1A) ∧ payloadDecoder c code = pdGpsLbs c) ∨
    (code = 0x13 ∧ payloadDecoder c code = pdStatus c.statusBits) ∨
    (code = 0x16 ∧ payloadDecoder c code = pdAlarm c) ∨
    (code = 0xA0 ∧ payloadDecoder c code = pdGpsLbsA0 c) ∨
    (code ∉ [(0x01 : Byte), 0x12, 0x13, 0x16, 0x1A, 0xA0] ∧ payloadDecoder c code = pdGeneric) := by
  by_cases hlogin : code = 0x01
  · exact .inl ⟨hlogin, by rw [hlogin]; rfl⟩
  by_cases hstd : code = 0x12 ∨ code = 0x1A
  · exact .inr (.inl ⟨hstd, by obtain rfl | rfl := hstd <;> rfl⟩)
  by_cases hstatus : code = 0x13
  · exact .inr (.inr (.inl ⟨hstatus, by rw [hstatus]; rfl⟩))
  by_cases halarm : code = 0x16
  · exact .inr (.inr (.inr (.inl ⟨halarm, by rw [halarm]; rfl⟩)))
  by_cases hext : code = 0xA0
  · exact .inr (.inr (.inr (.inr (.inl ⟨hext, by rw [hext]; rfl⟩))))
  · refine .inr (.inr (.inr (.inr (.inr ⟨?_, ?_⟩))))
    · simp only [List.mem_cons, List.not_mem_nil, or_false, hlogin, not_or.mp hstd, hstatus, halarm, hext,
        not_false_eq_true]
    · funext p r
      simp only [payloadDecoder, hlogin, hstd, hstatus, halarm, hext, if_false]

/-- An alarm payload's record is that of a standard block, which is empty when the payload is (43_payload_decoders.md
R100). -/
theorem pdAlarm_commonFields (c : Config) (p f : Bytes) (t : Nat) : ∃ al g,
    pdAlarm c p (commonFields f t) = (alarmBase f t al).withGps c (stdGpsFields g) := by
  unfold pdAlarm
  split
  · exact ⟨none, [], rfl⟩
  · exact ⟨some (alarmFlags (byteAt p 0)), p.drop 1, pdGpsLbs_alarmBase ..⟩

/-- Whatever the code, the signed coordinates of a record are those its other GPS fields determine. -/
theorem payloadDecoder_commonFields (c : Config) (code : Byte) (p f : Bytes) (t : Nat) :
    ∃ r x, payloadDecoder c code p (commonFields f t) = Record.withGps c r x := by
  obtain ⟨-, h⟩ | ⟨-, h⟩ | ⟨-, h⟩ | ⟨-, h⟩ | ⟨-, h⟩ | ⟨-, h⟩ := payloadDecoder_cases c code <;> rw [h]
  · exact ⟨pdLogin p (commonFields f t), {}, by rw [pdLogin_commonFields]; rfl⟩
  · exact ⟨_, _, pdGpsLbs_alarmBase c p f t none⟩
  · exact ⟨pdStatus c.statusBits p (commonFields f t), {}, by rw [pdStatus_commonFields]; rfl⟩
  · obtain ⟨al, g, halarm⟩ := pdAlarm_commonFields c p f t
    exact ⟨_, _, halarm⟩
  · exact ⟨_, _, pdGpsLbsA0_commonFields ..⟩
  · exact ⟨pdGeneric p (commonFields f t), {}, rfl⟩

/-- A coordinate is negated unless its flag is the parameter's value (43_payload_decoders.md R113, R114). -/
theorem signedCoord_eq (c : Config) (flag : Bool) (v : BitVec 32) :
    signedCoord c flag v = if flag = c.hemiNegWhenSet then (v.toNat : Int) else -v.toNat := by
  simp only [signedCoord, beq_iff_eq]

/-- Settles O50: the record of every kind carries the signed coordinates its raw values and status word determine. -/
theorem coordinateSigns : Obligations.CoordinateSigns := by
  intro i f s hwf hf
  have hdecodes := decodes_of_wellFormed hf hwf s
  obtain ⟨r, x, hrecord⟩ :=
    payloadDecoder_commonFields s.cfg (protocolOf f) (payloadOf f) f (timeSample s.cfg s.draws)
  rw [State.recordOf, hrecord] at hdecodes
  refine ⟨_, hdecodes, ?_⟩
  simp only [← signedCoord_eq]
  exact ⟨rfl, rfl⟩

section Present

variable {c : Config} {p f g : Bytes} {t : Nat}

theorem present_pdLogin (h : protocolOf f = 0x01) : Present (pdLogin p (commonFields f t)) := by
  have hgates : (10 ≤ p.length → 8 ≤ p.length) ∧ (12 ≤ p.length → 10 ≤ p.length) := by omega
  rw [pdLogin_commonFields]
  simpa [Present, commonFields, standardGps, h] using hgates

theorem present_pdStatus (l : StatusBits) (h : protocolOf f = 0x13) : Present (pdStatus l p (commonFields f t)) := by
  have hgate : l.voltageAt < p.length ∨ l.strengthAt < p.length ∨ l.alarmAt < p.length ∨ l.languageAt < p.length →
      1 ≤ p.length := by omega
  rw [pdStatus_commonFields]
  simpa [Present, commonFields, standardGps, h] using hgate

/-- A signed coordinate is there iff its raw value and the status word are (43_payload_decoders.md R123). -/
theorem isSome_signed (fix : Option FixFlags) (raw : Option (BitVec 32)) (sign : FixFlags → BitVec 32 → Int) :
    (fix.bind fun w => raw.map (sign w)).isSome ↔ raw.isSome ∧ fix.isSome := by
  cases fix <;> cases raw <;> simp

/-- The gates of a standard block open in order: the cell block behind the status word, and that behind all the fields
before it. -/
theorem stdGpsFields_gates (g : Bytes) :
    ((stdGpsFields g).cell.isSome → (stdGpsFields g).fix.isSome) ∧
    ((stdGpsFields g).fix.isSome → (stdGpsFields g).speed.isSome ∧ (stdGpsFields g).lonRaw.isSome ∧
      (stdGpsFields g).latRaw.isSome ∧ (stdGpsFields g).satellites.isSome) := by
  simp only [stdGpsFields, Option.isSome_ite]
  omega

/-- The presence of the fields of a GPS payload comes down to the order of its gates and to its code. -/
theorem present_withGps {al : Option AlarmFlags} {x : GpsFields}
    (hcode : standardGps (protocolOf f) = true ∨ protocolOf f = 0xA0) (hal : al.isSome → protocolOf f = 0x16)
    (hcell : x.cell.isSome → x.fix.isSome)
    (hfix : standardGps (protocolOf f) → x.fix.isSome →
      x.speed.isSome ∧ x.lonRaw.isSome ∧ x.latRaw.isSome ∧ x.satellites.isSome)
    (hext : protocolOf f = 0xA0 → x.satellites = none ∧ x.additionalData = none)
    (hstd : x.satellites.isSome ∨ x.additionalData.isSome → standardGps (protocolOf f)) :
    Present ((alarmBase f t al).withGps c x) := by
  have hlisted : protocolOf f ∈ [(0x01 : Byte), 0x12, 0x13, 0x16, 0x1A, 0xA0] := by
    simp only [standardGps, Bool.or_eq_true, beq_iff_eq] at hcode
    obtain ((h | h) | h) | h := hcode <;> rw [h] <;> decide
  exact ⟨nofun, nofun, (by rintro (h | h | h | h) <;> cases h), isSome_signed .., isSome_signed .., hcell, hfix, hext,
    iff_of_false nofun (not_not_intro hlisted), nofun, nofun, hal, fun _ => hcode, hstd⟩

theorem present_stdGpsFields {al : Option AlarmFlags} (h : standardGps (protocolOf f) = true)
    (hal : al.isSome → protocolOf f = 0x16) : Present ((alarmBase f t al).withGps c (stdGpsFields g)) := by
  obtain ⟨hcell, hfix⟩ := stdGpsFields_gates g
  refine present_withGps (.inl h) hal hcell (fun _ => hfix) (fun hext => ?_) fun _ => h
  rw [hext] at h
  cases h

theorem present_extGpsFields (h : protocolOf f = 0xA0) :
    Present ((commonFields f t).withGps c (extGpsFields p)) := by
  have hcell : (extGpsFields p).cell.isSome → (extGpsFields p).fix.isSome := by
    by_cases h18 : 18 ≤ p.length <;> simp [extGpsFields, h18]
  refine present_withGps (al := none) (.inr h) nofun hcell (fun hstd => ?_) (fun _ => ⟨rfl, rfl⟩) ?_
  · rw [h] at hstd
    cases hstd
  · rintro (hsat | hdata)
    · cases hsat
    · cases hdata

theorem present_pdGeneric (h : protocolOf f ∉ [(0x01 : Byte), 0x12, 0x13, 0x16, 0x1A, 0xA0]) :
    Present (pdGeneric p (commonFields f t)) := by
  simpa [Present, pdGeneric, commonFields] using h

theorem trailingPresent_pdStatus : TrailingPresent (pdStatus StatusBits.default p (commonFields f t)) := by
  have hgates : (4 < p.length → 3 < p.length) ∧ (3 < p.length → 2 < p.length) ∧ (2 < p.length → 1 < p.length) ∧
      (1 < p.length → 1 ≤ p.length) := by omega
  rw [pdStatus_commonFields]
  simpa [TrailingPresent, StatusBits.default] using hgates

/-- What DECODE reports meets the presence invariants, routine by routine (43_payload_decoders.md R123). -/
theorem present_of_decodeFrame {r : Record} (h : decodeFrame c f t = some r) :
    Present r ∧ (c.statusBits = StatusBits.default → TrailingPresent r) := by
  rw [decodeFrame_eq] at h
  cases h
  generalize payloadOf f = p
  obtain ⟨hcode, h⟩ | ⟨hcode, h⟩ | ⟨hcode, h⟩ | ⟨hcode, h⟩ | ⟨hcode, h⟩ | ⟨hcode, h⟩ :=
    payloadDecoder_cases c (protocolOf f) <;> rw [h]
  · refine ⟨present_pdLogin hcode, fun _ => ?_⟩
    rw [pdLogin_commonFields]
    exact ⟨nofun, nofun, nofun, nofun⟩
  · have hstd : standardGps (protocolOf f) = true := by
      obtain hcode | hcode := hcode <;> rw [hcode] <;> rfl
    change Present (pdGpsLbs c p (alarmBase f t none)) ∧ (_ → TrailingPresent (pdGpsLbs c p (alarmBase f t none)))
    rw [pdGpsLbs_alarmBase]
    exact ⟨present_stdGpsFields hstd nofun, fun _ => ⟨nofun, nofun, nofun, nofun⟩⟩
  · exact ⟨present_pdStatus c.statusBits hcode, fun hlayout => hlayout ▸ trailingPresent_pdStatus⟩
  · obtain ⟨al, g, halarm⟩ := pdAlarm_commonFields c p f t
    have hstd : standardGps (protocolOf f) = true := by rw [hcode]; rfl
    rw [halarm]
    exact ⟨present_stdGpsFields hstd fun _ => hcode, fun _ => ⟨nofun, nofun, nofun, nofun⟩⟩
  · rw [pdGpsLbsA0_commonFields]
    exact ⟨present_extGpsFields hcode, fun _ => ⟨nofun, nofun, nofun, nofun⟩⟩
  · exact ⟨present_pdGeneric hcode, fun _ => ⟨nofun, nofun, nofun, nofun⟩⟩

end Present

/-- Settles O56: every reported record is DECODE of a frame, and each of the six routines keeps the implications. -/
theorem presenceInvariants : Obligations.PresenceInvariants := by
  intro chunk s t rs ds h hresult r hr
  obtain ⟨-, -, hdecode, -⟩ := recordsAreWholeFrames chunk s t rs ds h hresult r hr
  exact present_of_decodeFrame hdecode

end Sys2Proof.Machine

/-!
The statements of 44_ack.md: what BUILD_ACK answers (R126, R127), and what becomes of its frame when it is fed to
SUBMIT (R128).
-/

namespace Sys2Proof.Machine

/-! ## An acknowledgment fed back -/

/-- From an empty buffer, a SUBMIT of exactly one frame reports that frame's record and keeps nothing (41_framer.md
R79, R80). -/
theorem exec_submit_frame {f : Bytes} {s : State} (hframe : isFrame f = true) (hempty : s.buf = [])
    (hfits : chunkFits s f = true) :
    exec (.submit f) s = .next ((s.withDraws (s.draws + 1)).withResult (.ok [s.recordOf f] [])) := by
  obtain ⟨hcandidate, hstop⟩ := isFrame_iff.mp hframe
  have hbuf : s.buf ++ f = [f].flatten ++ [] := by simp [hempty]
  have hkept : s.withBuf [] = s := by rw [← hempty, State.withBuf_self]
  rw [exec_submit_stream hfits (by simpa using hcandidate) hbuf framed_nil, State.afterStream, hkept]
  simp [streamRecords, streamEvents, hstop, decodeFrame_eq, State.recordOf]

/-- The ten bytes of an acknowledgment have the form of a frame, whatever stands in its serial, code and CRC bytes
(30_encoding.md R47). -/
theorem isFrame_ack (code sh sl ch cl : Byte) :
    isFrame [0x78, 0x78, 0x05, code, sh, sl, ch, cl, 0x0D, 0x0A] = true := rfl

/-- Settles O20: the acknowledgment is one whole frame, and in 10 bytes the offsets `total - 6` and `total - 4` hold
the high bytes of its serial and of its CRC. The receiver does not check the CRC, so that it is right is not used. -/
theorem ackLoopsBack : Obligations.AckLoopsBack := by
  intro sh sl code ch cl s _ hempty hfits
  have hcommon := s.recordOf_common [0x78, 0x78, 0x05, code, sh, sl, ch, cl, 0x0D, 0x0A]
  exact ⟨_, exec_submit_frame (isFrame_ack ..) hempty hfits, hcommon.length, hcommon.protocol, hcommon.serial,
    hcommon.checksum, hcommon.raw⟩

/-! ## The acknowledgment builder -/

/-- BUILD_ACK answers every serial and code with the frame of R126, and changes nothing else (44_ack.md R126, R129). -/
theorem exec_buildAck (serial : BitVec 16) (code : Byte) (s : State) :
    exec (.buildAck serial code) s = .next (s.withResult (.frame (ackBytes serial code))) := rfl

/-- Settles O18: the frame of the serial put together from its two bytes, written out. -/
theorem buildAckFrame : Obligations.BuildAckFrame := by
  intro sh sl code ch cl s hcrc
  rw [exec_buildAck, ackBytes_append hcrc]

end Sys2Proof.Machine

/-!
The statements of 60_exceptions.md: an idle step and an incomplete candidate (R134, R146), nothing stuck and no fault
(R131), and the reserved command codes (R138).
-/

namespace Sys2Proof.Machine

/-! ## The step by what stands on the port -/

section Step

variable {s : State} {r : Request}

theorem step_of_port_nil (h : s.port = []) : step s = .next s := by
  simp [step, stepPort, h]

theorem step_of_port_cons {rest : List Request} (h : s.port = r :: rest) :
    step s = runRequest r (s.withPort rest) := by
  simp [step, stepPort, h]

theorem runRequest_of_decode_ok {i : Instr} (h : decode (present r s.buf) = .ok i) : runRequest r s = exec i s := by
  simp [runRequest, h]

theorem runRequest_of_decode_error {why : Reject} (h : decode (present r s.buf) = .error why) :
    runRequest r s = if why.waits then .next s else .refused (.rejected why) := by
  simp [runRequest, h]

/-- A request completes, or the decoder's reason to reject it is the step's reason to refuse. -/
theorem runRequest_completes_or_refuses (r : Request) (s : State) : (∃ t, runRequest r s = .next t) ∨
    ∃ why, decode (present r s.buf) = .error why ∧ runRequest r s = .refused (.rejected why) := by
  cases hdecode : decode (present r s.buf) with
  | ok i =>
    rw [runRequest_of_decode_ok hdecode]
    exact .inl (exec_completes i s)
  | error why =>
    rw [runRequest_of_decode_error hdecode]
    split
    · exact .inl ⟨s, rfl⟩
    · exact .inr ⟨why, rfl, rfl⟩

end Step

/-! ## Waiting -/

/-- Behind a start marker, too few bytes are a reason to wait, not an error (41_framer.md R77, R78). -/
theorem decode_incomplete_candidate {b : Bytes} (hmarker : markerAtHead b = true)
    (hsize : b.length < 5 ∨ b.length < candidateSize b) :
    ∃ why, decode (.candidate b) = .error why ∧ why.waits = true := by
  simp only [decode, decodeCandidate, hmarker, if_true]
  by_cases h5 : b.length < 5
  · exact ⟨.headerIncomplete, if_pos h5, rfl⟩
  · rw [if_neg h5, if_pos (hsize.resolve_left h5)]
    exact ⟨.frameIncomplete, rfl, rfl⟩

/-- Settles O2: an empty port leaves the state, and the decoder answers an incomplete candidate with a reason to
wait. -/
theorem stepWaitsWithoutWork : Obligations.StepWaitsWithoutWork := by
  refine ⟨fun s => step_of_port_nil, fun s rest hport hmarker hsize => ?_⟩
  obtain ⟨why, hdecode, hwaits⟩ := decode_incomplete_candidate (markerAt_zero_iff.mp hmarker) hsize
  rw [step_of_port_cons hport, runRequest_of_decode_error (r := .candidate) (s := s.withPort rest) hdecode,
    if_pos hwaits]

/-! ## Nothing faults -/

/-- Settles O3: every instruction completes, so a step that takes a request off the port stops only where the request
does not decode. -/
theorem nothingFaultsOrHangs : Obligations.NothingFaultsOrHangs := by
  refine ⟨exec_completes, fun s => ?_⟩
  cases hport : s.port with
  | nil => exact .inl ⟨s, step_of_port_nil hport⟩
  | cons r rest =>
    rw [step_of_port_cons hport]
    obtain hnext | ⟨why, hdecode, hrefused⟩ := runRequest_completes_or_refuses r (s.withPort rest)
    · exact .inl hnext
    · exact .inr ⟨r, rest, why, rfl, hdecode, hrefused⟩

/-! ## The reserved codes -/

/-- Settles O10: both codes decode with any operand bytes, and both instructions are a refusal, which writes the result
alone. -/
theorem reservedCodesRefused : Obligations.ReservedCodesRefused :=
  fun _ _ => ⟨rfl, rfl, refuse_eq_next.mpr rfl, refuse_eq_next.mpr rfl⟩

end Sys2Proof.Machine

/-!
The statement of 70_reset_and_hazards.md: what RESET leaves of the state (R147).
-/

namespace Sys2Proof.Machine

/-- Settles O9: RESET completes from every state, with no result, in the state whose buffer is emptied and whose CRC
message is closed. -/
theorem resetCommandEmptiesBuffer : Obligations.ResetCommandEmptiesBuffer :=
  fun _ => complete_eq_next.mpr rfl

end Sys2Proof.Machine

/-!
The statement of 20_memory.md on the order of commands (R33, R37): a step runs the oldest request on the port.
-/

namespace Sys2Proof.Machine

/-- Settles O1: taking the request off the port leaves `BUF`, so the request decodes to the same instruction. -/
theorem stepRunsDecodedRequest : Obligations.StepRunsDecodedRequest := by
  intro s r rest i hport hdecode
  have hdecode' : decode (present r (s.withPort rest).buf) = .ok i := by rwa [State.withPort_buf]
  calc step s = runRequest r (s.withPort rest) := step_of_port_cons hport
    _ = exec i (s.withPort rest) := runRequest_of_decode_ok hdecode'

end Sys2Proof.Machine
